-- ==== Sys2Proof/Word.lean ====
section
/-! DEFINITION. The word types of the block's ports and registers (R64, R69, R40). Bit 0 is the least significant bit (R7, D6). -/

namespace Sys2Proof

/-- A register or buffer byte (R10, R40). -/
abbrev Byte := BitVec 8

/-- The command word `CW` on `cmd_word` (R64). -/
abbrev CmdWord := BitVec 64

/-- The event code on `ev_code` (R69). -/
abbrev EvCode := BitVec 3

/-- What an agent may present to the block in one step: a command word on the
command port or an event code on the event port (R5, R6). -/
inductive PortWord where
  | cmd (w : CmdWord)
  | ev (c : EvCode)
deriving DecidableEq, Repr

end Sys2Proof
end

