-- ==== Sys2Proof/Syntax.lean ====
section
/-! DEFINITION. The instructions: one constructor per row of spec/opcode_table.json (R66, R69).
A command is what a host presents on the command port, an event what the transport, the tick source or
the session manager presents on the event port. -/

namespace Sys2Proof

/-- The commands and events of the block. A numeric operand is the signed value of `A16` (R65);
`rx_buf` and `rx_len` are ports and no part of an instruction (R92, R93). -/
inductive Instr where
  /-- DECODE (R92). -/
  | decode
  /-- LOAD (R93). -/
  | load
  /-- GET_STATE (R94). -/
  | getState
  /-- SET_TARGET_TEMP (R150): temperature in half degrees C. -/
  | setTargetTemp (t2 : Int)
  /-- SET_HOLD_TIME (R151): minutes. -/
  | setHoldTime (minutes : Int)
  /-- SET_CHIME_VOLUME (R152): level. -/
  | setChimeVolume (level : Int)
  /-- SET_PRE_BOIL (R153): `FLG[0]`. -/
  | setPreBoil (enabled : Bool)
  /-- SET_ALTITUDE (R154): metres. -/
  | setAltitude (metres : Int)
  /-- SET_CLOCK without a mode (R155): `B8`, `C8`. -/
  | setClock (hour minute : Byte)
  /-- SET_CLOCK with a mode (R155), row SET_CLOCK.mode: `B8`, `C8`, `D8`. -/
  | setClockMode (hour minute mode : Byte)
  /-- SET_LANGUAGE (R156): `B8`. -/
  | setLanguage (code : Byte)
  /-- SET_SCHEDULE (R184): `FLG[1:0]`, `B8`, `C8`, `A16` (half degrees C). -/
  | setSchedule (mode : BitVec 2) (hour minute : Byte) (t2 : Int)
  /-- DISABLE_SCHEDULE (R185). -/
  | disableSchedule
  /-- Event WR_ACK (R211). -/
  | wrAck
  /-- Event WR_FAIL (R212). -/
  | wrFail
  /-- Event TICK (R214). -/
  | tick
  /-- Event INVALIDATE (R213). -/
  | invalidate
  /-- Reserved event code 0 (R220). -/
  | evReserved0
  /-- Reserved event code 5 (R220). -/
  | evReserved5
  /-- Reserved event code 6 (R220). -/
  | evReserved6
  /-- Reserved event code 7 (R220). -/
  | evReserved7
deriving DecidableEq, Repr

/-- The instruction is an event: it is taken on the event port (R5, R69). -/
def Instr.isEvent : Instr → Bool
  | .wrAck | .wrFail | .tick | .invalidate => true
  | .evReserved0 | .evReserved5 | .evReserved6 | .evReserved7 => true
  | .decode | .load | .getState => false
  | .setTargetTemp _ | .setHoldTime _ | .setChimeVolume _ | .setPreBoil _ | .setAltitude _ => false
  | .setClock _ _ | .setClockMode _ _ _ | .setLanguage _ => false
  | .setSchedule _ _ _ _ | .disableSchedule => false

/-- The instruction is a mutating command: it follows the common shape of R128. -/
def Instr.isSetter : Instr → Bool
  | .setTargetTemp _ | .setHoldTime _ | .setChimeVolume _ | .setPreBoil _ | .setAltitude _ => true
  | .setClock _ _ | .setClockMode _ _ _ | .setLanguage _ => true
  | .setSchedule _ _ _ _ | .disableSchedule => true
  | .decode | .load | .getState => false
  | .wrAck | .wrFail | .tick | .invalidate => false
  | .evReserved0 | .evReserved5 | .evReserved6 | .evReserved7 => false

end Sys2Proof
end

