-- ==== Sys2Proof/WellFormed.lean ====
section
/-! DEFINITION. Which instructions have an encoding. The only operand whose type is wider than its field is the
number carried by `A16`, a 16-bit two's-complement field (R65). -/

namespace Sys2Proof

/-- A number the `A16` field can express: -32768 to 32767 (R65, R126 (a)). -/
def fitsA16 (v : Int) : Bool := decide (-32768 ≤ v) && decide (v ≤ 32767)

/-- The instruction can be presented on a port: each `A16` operand fits its field. -/
def Instr.wf : Instr → Bool
  | .setTargetTemp v | .setHoldTime v | .setChimeVolume v | .setAltitude v => fitsA16 v
  | .setSchedule _ _ _ v => fitsA16 v
  | .decode | .load | .getState | .setPreBoil _ => true
  | .setClock _ _ | .setClockMode _ _ _ | .setLanguage _ | .disableSchedule => true
  | .wrAck | .wrFail | .tick | .invalidate => true
  | .evReserved0 | .evReserved5 | .evReserved6 | .evReserved7 => true

end Sys2Proof
end

