-- ==== Sys2Proof/Decode.lean ====
section
/-! DEFINITION. The decoder of the command word (R64 to R68) and of the event code (R69), then the encoder, then the
opcode table's rows as data. -/

namespace Sys2Proof

/-- The fields of a command word (R64). -/
structure CmdFields where
  opc : Byte
  flg : Byte
  a16 : BitVec 16
  b8 : Byte
  c8 : Byte
  d8 : Byte
  rsv : Byte
deriving DecidableEq, Repr

/-- The field positions of R64: OPC 63..56, FLG 55..48, A16 47..32, B8 31..24,
C8 23..16, D8 15..8, RSV 7..0. -/
def CmdFields.ofWord (w : CmdWord) : CmdFields where
  opc := w.extractLsb' 56 8
  flg := w.extractLsb' 48 8
  a16 := w.extractLsb' 32 16
  b8 := w.extractLsb' 24 8
  c8 := w.extractLsb' 16 8
  d8 := w.extractLsb' 8 8
  rsv := w.extractLsb' 0 8

/-- The command word with the given fields, laid out as R64 says. -/
def CmdFields.toWord (f : CmdFields) : CmdWord :=
  f.opc ++ f.flg ++ f.a16 ++ f.b8 ++ f.c8 ++ f.d8 ++ f.rsv

/-- `sext_16` (R7): a 16-bit field read as a two's-complement number. -/
def sext16 (v : BitVec 16) : Int :=
  if v.toNat < 32768 then v.toNat else (v.toNat : Int) - 65536

/-- The `A16` field that carries a number (R65). -/
def toA16 (v : Int) : BitVec 16 := BitVec.ofInt 16 v

/-- The twelve opcodes of R66. -/
inductive Opcode where
  | decode
  | load
  | getState
  | setTargetTemp
  | setHoldTime
  | setChimeVolume
  | setPreBoil
  | setAltitude
  | setClock
  | setLanguage
  | setSchedule
  | disableSchedule
deriving DecidableEq, Repr

/-- The opcode a value of `OPC` names (R66); none for the illegal values of R68. -/
def Opcode.ofByte (b : Byte) : Option Opcode :=
  match b.toNat with
  | 0x01 => some .decode
  | 0x02 => some .load
  | 0x03 => some .getState
  | 0x10 => some .setTargetTemp
  | 0x11 => some .setHoldTime
  | 0x12 => some .setChimeVolume
  | 0x13 => some .setPreBoil
  | 0x14 => some .setAltitude
  | 0x15 => some .setClock
  | 0x16 => some .setLanguage
  | 0x17 => some .setSchedule
  | 0x18 => some .disableSchedule
  | _ => none

/-- Why a command word is illegal (R67, R68). -/
inductive Illegal where
  /-- The opcode is not in R66 (R68). -/
  | unknownOpcode
  /-- A must-be-zero field is nonzero (R67). -/
  | reservedField
deriving DecidableEq, Repr

/-- The info byte of IllegalCommand (R67, R68, R240). -/
def Illegal.info : Illegal → Byte
  | .unknownOpcode => 0x01
  | .reservedField => 0x02

/-- What the decoder answers: an instruction, or the reason the word is illegal. -/
inductive Decoded where
  | ok (i : Instr)
  | illegal (why : Illegal)
deriving DecidableEq, Repr

/-- The instruction, if its must-be-zero fields are zero (R67). -/
def mustBeZero (zero : Bool) (i : Instr) : Decoded :=
  if zero then .ok i else .illegal .reservedField

/-- Decoding by fields, opcode first and must-be-zero fields second (R128 steps 1 and 2, R66, R67). -/
def decodeFields (f : CmdFields) : Decoded :=
  match Opcode.ofByte f.opc with
  | none => .illegal .unknownOpcode
  | some .decode =>
    mustBeZero (f.flg == 0 && f.a16 == 0 && f.b8 == 0 && f.c8 == 0 && f.d8 == 0 && f.rsv == 0) .decode
  | some .load =>
    mustBeZero (f.flg == 0 && f.a16 == 0 && f.b8 == 0 && f.c8 == 0 && f.d8 == 0 && f.rsv == 0) .load
  | some .getState =>
    mustBeZero (f.flg == 0 && f.a16 == 0 && f.b8 == 0 && f.c8 == 0 && f.d8 == 0 && f.rsv == 0) .getState
  | some .setTargetTemp =>
    mustBeZero (f.flg == 0 && f.b8 == 0 && f.c8 == 0 && f.d8 == 0 && f.rsv == 0) (.setTargetTemp (sext16 f.a16))
  | some .setHoldTime =>
    mustBeZero (f.flg == 0 && f.b8 == 0 && f.c8 == 0 && f.d8 == 0 && f.rsv == 0) (.setHoldTime (sext16 f.a16))
  | some .setChimeVolume =>
    mustBeZero (f.flg == 0 && f.b8 == 0 && f.c8 == 0 && f.d8 == 0 && f.rsv == 0) (.setChimeVolume (sext16 f.a16))
  | some .setPreBoil =>
    mustBeZero (f.flg.extractLsb' 1 7 == 0 && f.a16 == 0 && f.b8 == 0 && f.c8 == 0 && f.d8 == 0 && f.rsv == 0)
      (.setPreBoil (f.flg.getLsbD 0))
  | some .setAltitude =>
    mustBeZero (f.flg == 0 && f.b8 == 0 && f.c8 == 0 && f.d8 == 0 && f.rsv == 0) (.setAltitude (sext16 f.a16))
  | some .setClock =>
    if f.flg.getLsbD 0 then
      mustBeZero (f.flg.extractLsb' 1 7 == 0 && f.a16 == 0 && f.rsv == 0) (.setClockMode f.b8 f.c8 f.d8)
    else
      mustBeZero (f.flg.extractLsb' 1 7 == 0 && f.a16 == 0 && f.d8 == 0 && f.rsv == 0) (.setClock f.b8 f.c8)
  | some .setLanguage =>
    mustBeZero (f.flg == 0 && f.a16 == 0 && f.c8 == 0 && f.d8 == 0 && f.rsv == 0) (.setLanguage f.b8)
  | some .setSchedule =>
    mustBeZero (f.flg.extractLsb' 2 6 == 0 && f.d8 == 0 && f.rsv == 0)
      (.setSchedule (f.flg.extractLsb' 0 2) f.b8 f.c8 (sext16 f.a16))
  | some .disableSchedule =>
    mustBeZero (f.flg == 0 && f.a16 == 0 && f.b8 == 0 && f.c8 == 0 && f.d8 == 0 && f.rsv == 0) .disableSchedule

/-- The command a command word stands for (R64 to R68). -/
def decodeCommand (w : CmdWord) : Decoded := decodeFields (CmdFields.ofWord w)

/-- The event an event code stands for (R69): every code is one. -/
def decodeEvent (c : EvCode) : Instr :=
  match c.toNat with
  | 1 => .wrAck
  | 2 => .wrFail
  | 3 => .tick
  | 4 => .invalidate
  | 0 => .evReserved0
  | 5 => .evReserved5
  | 6 => .evReserved6
  | _ => .evReserved7

/-- The decoder, total on whatever a port carries. -/
def decode : PortWord → Decoded
  | .cmd w => decodeCommand w
  | .ev c => .ok (decodeEvent c)

/-- The instruction of an opcode-table row's word of `nbits` bits: an event code for the
3-bit rows (one byte or less), a command word otherwise. -/
def decodeTableWord (nbits w : Nat) : Option Instr :=
  if nbits ≤ 8 then
    if w < 8 then some (decodeEvent (BitVec.ofNat 3 w)) else none
  else if w < 2 ^ 64 then
    match decodeCommand (BitVec.ofNat 64 w) with
    | .ok i => some i
    | .illegal _ => none
  else none

/-- The command word of R66 with every field but the opcode zero. -/
def blankFields (opc : Byte) : CmdFields :=
  { opc := opc, flg := 0, a16 := 0, b8 := 0, c8 := 0, d8 := 0, rsv := 0 }

/-- The fields of a command, from R66; an event has none. -/
def encodeFields : Instr → Option CmdFields
  | .decode => some (blankFields 0x01)
  | .load => some (blankFields 0x02)
  | .getState => some (blankFields 0x03)
  | .setTargetTemp v => some { blankFields 0x10 with a16 := toA16 v }
  | .setHoldTime v => some { blankFields 0x11 with a16 := toA16 v }
  | .setChimeVolume v => some { blankFields 0x12 with a16 := toA16 v }
  | .setPreBoil e => some { blankFields 0x13 with flg := if e then 0x01 else 0x00 }
  | .setAltitude v => some { blankFields 0x14 with a16 := toA16 v }
  | .setClock h m => some { blankFields 0x15 with b8 := h, c8 := m }
  | .setClockMode h m d => some { blankFields 0x15 with flg := 0x01, b8 := h, c8 := m, d8 := d }
  | .setLanguage l => some { blankFields 0x16 with b8 := l }
  | .setSchedule k h m v =>
    some { blankFields 0x17 with flg := k.setWidth 8, a16 := toA16 v, b8 := h, c8 := m }
  | .disableSchedule => some (blankFields 0x18)
  | .wrAck | .wrFail | .tick | .invalidate => none
  | .evReserved0 | .evReserved5 | .evReserved6 | .evReserved7 => none

/-- The code of an event, from R69; a command has none. -/
def encodeEvent : Instr → Option EvCode
  | .wrAck => some 1
  | .wrFail => some 2
  | .tick => some 3
  | .invalidate => some 4
  | .evReserved0 => some 0
  | .evReserved5 => some 5
  | .evReserved6 => some 6
  | .evReserved7 => some 7
  | .decode | .load | .getState => none
  | .setTargetTemp _ | .setHoldTime _ | .setChimeVolume _ | .setPreBoil _ | .setAltitude _ => none
  | .setClock _ _ | .setClockMode _ _ _ | .setLanguage _ => none
  | .setSchedule _ _ _ _ | .disableSchedule => none

/-- What an agent presents to have an instruction run: its command word or its event code. -/
def encode (i : Instr) : PortWord :=
  match encodeEvent i, encodeFields i with
  | some c, _ => .ev c
  | none, some f => .cmd f.toWord
  | none, none => .ev 0

/-- A row of the opcode table that is a command: its pattern over the 64 bits. -/
structure CmdRow where
  pat : CmdWord
  mask : CmdWord
deriving DecidableEq, Repr

/-- The word matches the row. -/
def CmdRow.matchesWord (r : CmdRow) (w : CmdWord) : Bool := w &&& r.mask == r.pat

/-- The `match` and `mask` of each CW64 row of spec/opcode_table.json, by instruction (R66); none for
an event, whose row is of format EV3. -/
def cmdRow : Instr → Option CmdRow
  | .decode => some ⟨0x0100000000000000, 0xFFFFFFFFFFFFFFFF⟩
  | .load => some ⟨0x0200000000000000, 0xFFFFFFFFFFFFFFFF⟩
  | .getState => some ⟨0x0300000000000000, 0xFFFFFFFFFFFFFFFF⟩
  | .setTargetTemp _ => some ⟨0x1000000000000000, 0xFFFF0000FFFFFFFF⟩
  | .setHoldTime _ => some ⟨0x1100000000000000, 0xFFFF0000FFFFFFFF⟩
  | .setChimeVolume _ => some ⟨0x1200000000000000, 0xFFFF0000FFFFFFFF⟩
  | .setPreBoil _ => some ⟨0x1300000000000000, 0xFFFEFFFFFFFFFFFF⟩
  | .setAltitude _ => some ⟨0x1400000000000000, 0xFFFF0000FFFFFFFF⟩
  | .setClock _ _ => some ⟨0x1500000000000000, 0xFFFFFFFF0000FFFF⟩
  | .setClockMode _ _ _ => some ⟨0x1501000000000000, 0xFFFFFFFF000000FF⟩
  | .setLanguage _ => some ⟨0x1600000000000000, 0xFFFFFFFF00FFFFFF⟩
  | .setSchedule _ _ _ _ => some ⟨0x1700000000000000, 0xFFFC00000000FFFF⟩
  | .disableSchedule => some ⟨0x1800000000000000, 0xFFFFFFFFFFFFFFFF⟩
  | .wrAck | .wrFail | .tick | .invalidate => none
  | .evReserved0 | .evReserved5 | .evReserved6 | .evReserved7 => none

/-- The thirteen CW64 rows, in the table's order (R66). -/
def cmdRows : List CmdRow :=
  [Instr.decode, .load, .getState, .setTargetTemp 0, .setHoldTime 0, .setChimeVolume 0, .setPreBoil false].filterMap cmdRow
  ++ [Instr.setAltitude 0, .setClock 0 0, .setClockMode 0 0 0, .setLanguage 0, .setSchedule 0 0 0 0,
      .disableSchedule].filterMap cmdRow

end Sys2Proof
end

