-- ==== Sys2Proof/Config.lean ====
section
/-! DEFINITION. The implementation parameters of R4 and the two values the spec leaves open.
A parameter set is plain data; State carries one and no step changes it (DESIGN CHOICE, log entry 4). -/

namespace Sys2Proof

/-- `ALT_SET_ROUND`: how SET_ALTITUDE buckets its operand (R4, R154, C1). -/
inductive AltRound where
  | floor
  | nearest
deriving DecidableEq, Repr

/-- `CTR_FEEDBACK`: what a commit puts in `CTR` (R4, R215, C3). -/
inductive CtrFeedback where
  | logical
  | wire
deriving DecidableEq, Repr

/-- The three clock modes the source names (R71). -/
inductive ClockMode where
  | off
  | digital
  | analog
deriving DecidableEq, Repr

/-- The parameters a model takes (R4) that some rule reads. -/
structure Config where
  /-- `ALT_SET_ROUND`. -/
  altSetRound : AltRound
  /-- `CTR_FEEDBACK`. -/
  ctrFeedback : CtrFeedback
  /-- `CLOCK_MODE_CODES`: a finite map from byte values to clock modes (the first pair for a byte counts, log entry 13). -/
  clockModeCodes : List (Byte × ClockMode)
  /-- `LANG_SET`: the known language codes. -/
  langSet : List Byte
  /-- `SETTLE_TICKS`, at least 1. -/
  settleTicks : Nat
deriving DecidableEq, Repr

namespace Config

/-- `REC_LEN` (R4). -/
def recLen : Nat := 17
/-- `TEMP_MIN2`, half degrees C (R4). -/
def tempMin2 : Int := 0
/-- `TEMP_MAX2`, half degrees C (R4). -/
def tempMax2 : Int := 200
/-- `HOLD_MIN`, minutes (R4). -/
def holdMin : Int := 0
/-- `HOLD_MAX`, minutes (R4). -/
def holdMax : Int := 60
/-- `CHIME_MIN` (R4). -/
def chimeMin : Int := 0
/-- `CHIME_MAX` (R4). -/
def chimeMax : Int := 10
/-- `ALT_MIN`, metres (R4). -/
def altMin : Int := 0
/-- `ALT_MAX`, metres (R4). -/
def altMax : Int := 3000
/-- `ALT_STEP`, metres (R4). -/
def altStep : Nat := 30
/-- `SENT_TEMP` (R4, R123). -/
def sentTemp : Byte := 0xC0
/-- `SENT_HOUR` (R4, R123). -/
def sentHour : Byte := 0x00
/-- `SENT_MIN` (R4, R123). -/
def sentMin : Byte := 0x00

/-- The settle delay the source fixes, in milliseconds (R283). -/
def settleDelayMs : Nat := 300
/-- `T_TICK` in milliseconds (R4, D21). -/
def tickMs : Nat := 1
/-- `IDLE_TIMEOUT` in milliseconds (R4): the session manager's, no rule reads it. -/
def idleTimeoutMs : Nat := 60000

/-- `LANG_SET` has no default: the spec leaves it OPEN (R4, R71, D14), so its
members are a free value (DESIGN CHOICE, log entry 5). -/
opaque openLangSet : List Byte

/-- What `rx_buf` holds at an offset the transport's read did not reach. The
spec gives it no value and no rule reads it (U18), so it is a free value (DESIGN CHOICE,
log entry 6). -/
opaque unreadRxByte : Nat → Byte

/-- The default codes of D13. -/
def defaultClockModeCodes : List (Byte × ClockMode) :=
  [(0x00, .off), (0x01, .digital), (0x02, .analog)]

/-- The defaults R4 decides (log entry 14). `SETTLE_TICKS` is one tick more than the settle
delay holds, because the first tick may come at any moment (R214). -/
def specDefault : Config where
  altSetRound := .floor
  ctrFeedback := .logical
  clockModeCodes := defaultClockModeCodes
  langSet := openLangSet
  settleTicks := settleDelayMs / tickMs + 1

/-- `SETTLE_TICKS` is a natural number of at least 1 (R4, R214: 0 is not a legal
value); the upper bound is the width of `settle_cnt` (R18). DEDUCED, log entry 8. -/
abbrev Legal (c : Config) : Prop := 1 ≤ c.settleTicks ∧ c.settleTicks ≤ 65535

end Config

end Sys2Proof
end

