-- ==== Sys2Proof/Machine/State.lean ====
section
/-! DEFINITION. The state of the block (spec file 10), its ports (R6), and the state after reset (R25, R280).
Plain data throughout. -/

namespace Sys2Proof.Machine

/-- A file of seventeen 8-bit registers under the names of R11, in offset order 0 to 16: the shape of `REC`,
`TXB` and `RXB` (R10, R15, R40). -/
structure Record where
  /-- offset 0, STATUS -/
  status : Byte
  /-- offset 1, CONTROL -/
  control : Byte
  /-- offset 2, ALT_LO -/
  altLo : Byte
  /-- offset 3, ALT_HI -/
  altHi : Byte
  /-- offset 4, TARGET_T2 -/
  targetT2 : Byte
  /-- offset 5, BYTE5 -/
  byte5 : Byte
  /-- offset 6, SCHED_T2 -/
  schedT2 : Byte
  /-- offset 7, BYTE7 -/
  byte7 : Byte
  /-- offset 8, SCHED_MIN -/
  schedMin : Byte
  /-- offset 9, SCHED_HOUR -/
  schedHour : Byte
  /-- offset 10, CLOCK_MIN -/
  clockMin : Byte
  /-- offset 11, CLOCK_HOUR -/
  clockHour : Byte
  /-- offset 12, CLOCK_MODE -/
  clockMode : Byte
  /-- offset 13, HOLD -/
  hold : Byte
  /-- offset 14, CHIME -/
  chime : Byte
  /-- offset 15, LANGUAGE -/
  language : Byte
  /-- offset 16, COUNTER -/
  counter : Byte
deriving DecidableEq, Repr

/-- A record of seventeen zero bytes. -/
def Record.zero : Record := ⟨0, 0, 0, 0, 0, 0, 0, 0, 0, 0, 0, 0, 0, 0, 0, 0, 0⟩

/-- The protocol phase (R14). -/
inductive Phase where
  | idle
  | waitSingle
  | waitStep1
  | settle
  | waitStep3
deriving DecidableEq, Repr

/-- The value of the 3-bit `phase` register (R14): 5, 6 and 7 are no phase's. -/
def Phase.code : Phase → BitVec 3
  | .idle => 0
  | .waitSingle => 1
  | .waitStep1 => 2
  | .settle => 3
  | .waitStep3 => 4

/-- The schedule states `Off`, `Once`, `Daily` (R71, R180). -/
inductive SchedMode where
  | off
  | once
  | daily
deriving DecidableEq, Repr

/-- The 2-bit number of a schedule mode (R71). -/
def SchedMode.code : SchedMode → BitVec 2
  | .off => 0
  | .once => 1
  | .daily => 2

/-- The latched request of a two-step change (R17). -/
structure Latched where
  /-- `LAT.submode`: true = Once -/
  submode : Bool
  hour : Byte
  minute : Byte
  t2 : Byte
deriving DecidableEq, Repr

/-- The result codes (R240). -/
inductive ResultCode where
  | ok
  | notConnected
  | invalidArgument
  /-- never raised by the block; it keeps a number (R240, C6) -/
  | deviceNotFound
  | transportFailure
  | scheduleTransitionPartial
  | decodeError
  | illegalCommand
deriving DecidableEq, Repr

/-- The number of a result code (R240). -/
def ResultCode.code : ResultCode → Byte
  | .ok => 0x00
  | .notConnected => 0x01
  | .invalidArgument => 0x02
  | .deviceNotFound => 0x03
  | .transportFailure => 0x04
  | .scheduleTransitionPartial => 0x05
  | .decodeError => 0x06
  | .illegalCommand => 0x07

/-- The result register `RES` (R19, R70): two bytes a host reads. -/
structure Res where
  code : Byte
  info : Byte
deriving DecidableEq, Repr

/-- The 16-bit result word, `code` high (R70). -/
def Res.word (r : Res) : BitVec 16 := r.code ++ r.info

/-- The clock mode of the decoded view: an unknown byte has an explicit outcome (R71, R96). -/
inductive ClockModeView where
  | known (m : ClockMode)
  | unrecognized
deriving DecidableEq, Repr

/-- The decoded view of a record (R90), field by field. -/
structure View where
  schedEnabled : Bool
  statusOther : Byte
  unitsCelsius : Bool
  preBoil : Bool
  controlOther : Byte
  altitudeM : BitVec 15
  altMarker : Bool
  targetT2 : Byte
  byte5 : Byte
  schedT2 : Byte
  byte7 : Byte
  schedMinute : Byte
  schedHour : Byte
  clockMinute : Byte
  clockHour : Byte
  clockModeRaw : Byte
  clockMode : ClockModeView
  holdMin : Byte
  chime : Byte
  languageRaw : Byte
  languageKnown : Bool
  counter : Byte
  counterRaw : Byte
  schedSubmode : Bool
  schedMode : SchedMode
deriving DecidableEq, Repr

/-- What the agents present on the input ports in one step (R6). `cmd` is `cmd_word` when `cmd_valid` is
high, `ev` is `ev_code` when `ev_valid` is high. `reset` is the model's own input: R280 has reset happen and R6
gives it no port (DESIGN CHOICE, log entry 3). -/
structure Ports where
  reset : Bool
  cmd : Option CmdWord
  ev : Option EvCode
  /-- `rx_buf` -/
  rxBuf : Record
  /-- `rx_len` -/
  rxLen : Byte
deriving DecidableEq, Repr

/-- The state of the block, with its ports and what its agents present from here on. -/
structure State where
  /-- `REC` (R10) -/
  record : Record
  /-- `rec_valid` (R12) -/
  recValid : Bool
  /-- `CTR` (R13) -/
  ctr : Byte
  /-- `phase` (R14) -/
  phase : Phase
  /-- `TXB` (R15), also `tx_buf` -/
  txb : Record
  /-- `LAT` (R17) -/
  lat : Latched
  /-- `settle_cnt` (R18) -/
  settleCnt : BitVec 16
  /-- `RES` (R19), also `res_code` and `res_info` -/
  res : Res
  /-- `res_valid` of this step (R6) -/
  resValid : Bool
  /-- `tx_valid` of this step (R6) -/
  txValid : Bool
  /-- `view` (R6): none when the port carries no view (R6, U13; log entry 7) -/
  viewPort : Option View
  /-- the parameters (R4), fixed when the model is built (R281); the model's own field (log entry 4) -/
  cfg : Config
  /-- what is on the input ports in the step about to be taken (R6) -/
  ports : Ports
  /-- what the agents present in the steps after it, the next first (R9, R284); the model's own field
  (log entry 2) -/
  env : List Ports
deriving DecidableEq, Repr

/-- Why the block would stop with a fault (log entry 9). It has no constructor: every command word and every event has a defined
outcome in every phase (R210, R247, R284), and an error of the block is a result, not a stop (R250). -/
inductive Fault where
deriving DecidableEq, Repr

/-- Why an instruction would have no meaning. -/
inductive Refusal where
  /-- Raised by exec's arm of an instruction that has no meaning yet. Safe: the run ends. No arm raises it. -/
  | notModelled (mnemonic : String)
deriving DecidableEq, Repr

/-- The outcome of a step of this machine. -/
abbrev Outcome := Host.Outcome State Fault Refusal

/-- After reset (R25, R280): no cached record, `IDLE`, `RES` zero, strobes low. The spec gives `REC`, `CTR`, `TXB`,
`LAT` and `settle_cnt` no value there and no rule reads one; the zeros are DESIGN CHOICE, log entry 1, and
those of the input ports DESIGN CHOICE, log entry 2. -/
def State.reset : State where
  record := Record.zero
  recValid := false
  ctr := 0
  phase := .idle
  txb := Record.zero
  lat := { submode := false, hour := 0, minute := 0, t2 := 0 }
  settleCnt := 0
  res := { code := 0x00, info := 0x00 }
  resValid := false
  txValid := false
  viewPort := none
  cfg := Config.specDefault
  ports := { reset := false, cmd := none, ev := none, rxBuf := Record.zero, rxLen := 0 }
  env := []

end Sys2Proof.Machine
end

