-- ==== Sys2Proof/Machine/Flags.lean ====
section
/-! DEFINITION. The flag bits inside the record (R20) and the submode bit of the counter byte (R63, R125). The block
has no arithmetic condition codes. -/

namespace Sys2Proof.Machine

/-- Bit `k` of a byte. -/
def bitOf (b : Byte) (k : Nat) : Bool := b.getLsbD k

/-- Bit 3 of a byte replaced: `(b & 0xF7) | (v << 3)` (R126 (f)). -/
def withBit3 (b : Byte) (v : Bool) : Byte := (b &&& 0xF7) ||| (if v then 0x08 else 0x00)

/-- `sched_enabled`: bit 3 of STATUS (R20). -/
def Record.schedEnabled (r : Record) : Bool := bitOf r.status 3

/-- `units_celsius`: bit 1 of CONTROL (R20). -/
def Record.unitsCelsius (r : Record) : Bool := bitOf r.control 1

/-- `pre_boil`: bit 3 of CONTROL (R20). -/
def Record.preBoil (r : Record) : Bool := bitOf r.control 3

/-- `sched_submode`: bit 3 of COUNTER, true = Once (R11, R63). -/
def Record.schedSubmode (r : Record) : Bool := bitOf r.counter 3

/-- The altitude marker: bit 7 of ALT_HI (R11). -/
def Record.altMarker (r : Record) : Bool := bitOf r.altHi 7

/-- `T[0] <- T[0] & 0xF7` (R182). -/
def Record.clearEnabled (r : Record) : Record := { r with status := r.status &&& 0xF7 }

/-- `T[0] <- T[0] | 0x08` (R183). -/
def Record.setEnabled (r : Record) : Record := { r with status := r.status ||| 0x08 }

/-- `T[1] <- (T[1] & 0xF7) | (e << 3)` (R153). -/
def Record.setPreBoil (r : Record) (e : Bool) : Record := { r with control := withBit3 r.control e }

/-- Byte 16 of a written record from the incremented counter: its bit 3 is the submode when the
schedule is enabled and the counter's own otherwise (R63, R124, R125). -/
def wireCounter (n : Byte) (enabled submode : Bool) : Byte :=
  if enabled then withBit3 n submode else n

/-- The schedule state of a buffer (R95, R180). -/
def Record.schedMode (r : Record) : SchedMode :=
  if r.schedEnabled then (if r.schedSubmode then .once else .daily) else .off

end Sys2Proof.Machine
end

