-- ==== Sys2Proof/Machine/Operands.lean ====
section
/-! DEFINITION. Operand forms: the clamps (R120), the altitude buckets (R122, R126, R154), and the checks of the operands that
have no clamp (R128 step 3, R242). -/

namespace Sys2Proof.Machine

/-- `clamp(v, lo, hi)` (R7). -/
def clamp (v lo hi : Int) : Int := if v < lo then lo else if v > hi then hi else v

/-- A temperature operand's byte, half degrees C (R120). -/
def clampT2 (v : Int) : Byte := BitVec.ofInt 8 (clamp v Config.tempMin2 Config.tempMax2)

/-- A hold-time operand's byte, minutes (R120). -/
def clampHold (v : Int) : Byte := BitVec.ofInt 8 (clamp v Config.holdMin Config.holdMax)

/-- A chime-level operand's byte (R120). -/
def clampChime (v : Int) : Byte := BitVec.ofInt 8 (clamp v Config.chimeMin Config.chimeMax)

/-- An altitude operand in metres after its clamp (R120). -/
def clampAltitude (v : Int) : Nat := (clamp v Config.altMin Config.altMax).toNat

/-- `floor30(v) = v - (v mod 30)` (R7, R126 (c)). -/
def floor30 (v : Nat) : Nat := v - v % Config.altStep

/-- `near30(v) = ((v + 15) div 30) * 30`, a tie going up (R126 (d)). -/
def near30 (v : Nat) : Nat := (v + 15) / Config.altStep * Config.altStep

/-- The bucket SET_ALTITUDE writes, by `ALT_SET_ROUND` (R154). -/
def bucketAltitude (mode : AltRound) (m : Nat) : Nat :=
  match mode with
  | .floor => floor30 m
  | .nearest => near30 m

/-- The 15-bit altitude SET_ALTITUDE stores: clamp first, then bucket (R154). -/
def altitudeOperand (mode : AltRound) (v : Int) : BitVec 15 :=
  BitVec.ofNat 15 (bucketAltitude mode (clampAltitude v))

/-- The fields InvalidArgument can name (R128, R240). -/
inductive FieldId where
  | hour
  | minute
  | clockMode
  | language
  | scheduleMode
deriving DecidableEq, Repr

/-- The field id in the info byte (R128, R240). -/
def FieldId.info : FieldId → Byte
  | .hour => 0x01
  | .minute => 0x02
  | .clockMode => 0x03
  | .language => 0x04
  | .scheduleMode => 0x05

/-- An hour of 0 to 23 (R155, R184). -/
def hourOk (h : Byte) : Bool := decide (h.toNat ≤ 23)

/-- A minute of 0 to 59 (R155, R184). -/
def minuteOk (m : Byte) : Bool := decide (m.toNat ≤ 59)

/-- The clock mode a byte stands for under `CLOCK_MODE_CODES` (R71). -/
def clockModeOf (c : Config) (b : Byte) : Option ClockMode := c.clockModeCodes.lookup b

/-- The byte is a language code of `LANG_SET` (R71). -/
def languageOk (c : Config) (b : Byte) : Bool := c.langSet.contains b

/-- The schedule mode a 2-bit code stands for (R71): 3 is none. -/
def schedModeOfCode (k : BitVec 2) : Option SchedMode :=
  match k.toNat with
  | 0 => some .off
  | 1 => some .once
  | 2 => some .daily
  | _ => none

/-- The first bad time operand, hour before minute (R249). -/
def badTime (h m : Byte) : Option FieldId :=
  if !hourOk h then some .hour else if !minuteOk m then some .minute else none

/-- The first bad operand of SET_CLOCK with a mode: hour, minute, mode (R155, R249). -/
def badClockMode (c : Config) (h m d : Byte) : Option FieldId :=
  match badTime h m with
  | some f => some f
  | none => if (clockModeOf c d).isSome then none else some .clockMode

/-- The bad operand of SET_LANGUAGE (R156). -/
def badLanguage (c : Config) (b : Byte) : Option FieldId :=
  if languageOk c b then none else some .language

/-- The first bad operand of SET_SCHEDULE: mode, then hour and minute unless the target is Off (R184, R249). -/
def badSchedule (k : BitVec 2) (h m : Byte) : Option FieldId :=
  match schedModeOfCode k with
  | none => some .scheduleMode
  | some .off => none
  | some .once => badTime h m
  | some .daily => badTime h m

end Sys2Proof.Machine
end

