-- ==== Sys2Proof/Machine/Ops.lean ====
section
/-! DEFINITION. The named operations over the buffers, the registers and the ports: MemRead and MemWrite (R46), the
altitude field (R61), view (R90), pack (R121), raising an error (R250), completing (R8), issue_write (R127), commit (R215),
discard (R216), acceptance (R217), and what a step takes from the ports (R218). -/

namespace Sys2Proof.Machine

/-! ### Buffers -/

/-- `X[i]` (R7). -/
def Record.byte (r : Record) (i : Fin 17) : Byte :=
  match i with
  | 0 => r.status
  | 1 => r.control
  | 2 => r.altLo
  | 3 => r.altHi
  | 4 => r.targetT2
  | 5 => r.byte5
  | 6 => r.schedT2
  | 7 => r.byte7
  | 8 => r.schedMin
  | 9 => r.schedHour
  | 10 => r.clockMin
  | 11 => r.clockHour
  | 12 => r.clockMode
  | 13 => r.hold
  | 14 => r.chime
  | 15 => r.language
  | _ => r.counter

/-- `X[i] <- b` (R7). -/
def Record.setByte (r : Record) (i : Fin 17) (b : Byte) : Record :=
  match i with
  | 0 => { r with status := b }
  | 1 => { r with control := b }
  | 2 => { r with altLo := b }
  | 3 => { r with altHi := b }
  | 4 => { r with targetT2 := b }
  | 5 => { r with byte5 := b }
  | 6 => { r with schedT2 := b }
  | 7 => { r with byte7 := b }
  | 8 => { r with schedMin := b }
  | 9 => { r with schedHour := b }
  | 10 => { r with clockMin := b }
  | 11 => { r with clockHour := b }
  | 12 => { r with clockMode := b }
  | 13 => { r with hold := b }
  | 14 => { r with chime := b }
  | 15 => { r with language := b }
  | _ => { r with counter := b }

/-- The record with the given bytes in offset order. -/
def Record.ofBytes (f : Fin 17 → Byte) : Record where
  status := f 0
  control := f 1
  altLo := f 2
  altHi := f 3
  targetT2 := f 4
  byte5 := f 5
  schedT2 := f 6
  byte7 := f 7
  schedMin := f 8
  schedHour := f 9
  clockMin := f 10
  clockHour := f 11
  clockMode := f 12
  hold := f 13
  chime := f 14
  language := f 15
  counter := f 16

/-- The three byte-addressed spaces `RXB`, `REC`, `TXB` (R40). -/
inductive Space where
  | rxb
  | cached
  | txb
deriving DecidableEq, Repr

/-- The buffer of a space. -/
def State.space (s : State) : Space → Record
  | .rxb => s.ports.rxBuf
  | .cached => s.record
  | .txb => s.txb

/-- `MemRead(S:o, 1)` (R46). -/
def Record.memRead1 (r : Record) (o : Fin 17) : Byte := r.byte o

/-- `MemRead(S:o, 2) = S[o] | (S[o+1] << 8)`, little-endian (R42, R46). -/
def Record.memRead2 (r : Record) (o : Fin 16) : BitVec 16 := r.byte o.succ ++ r.byte o.castSucc

/-- `MemWrite(S:o, 1, v)` (R46). -/
def Record.memWrite1 (r : Record) (o : Fin 17) (v : Byte) : Record := r.setByte o v

/-- `MemWrite(S:o, 2, v)`: the low byte at `o`, the high byte at `o+1` (R42, R46). -/
def Record.memWrite2 (r : Record) (o : Fin 16) (v : BitVec 16) : Record :=
  (r.setByte o.castSucc (v.extractLsb' 0 8)).setByte o.succ (v.extractLsb' 8 8)

/-- The stored altitude, 15 bits without the marker (R61): `B[2] | ((B[3] & 0x7F) << 8)`. -/
def Record.raw15 (r : Record) : BitVec 15 := (r.memRead2 2).setWidth 15

/-- An altitude written with the marker bit set (R61): `B[2] <- alt[7:0]; B[3] <- 0x80 | alt[14:8]`. -/
def Record.withAltitude (r : Record) (a : BitVec 15) : Record := r.memWrite2 2 (1#1 ++ a)

/-! ### Unpack -/

/-- The altitude a record stands for, in metres: the lower 30 m bucket (R61, R90). -/
def Record.altitudeM (r : Record) : BitVec 15 := BitVec.ofNat 15 (floor30 r.raw15.toNat)

/-- The clock mode of the view: an unknown byte is `Unrecognized` (R90, R96). -/
def clockModeView (c : Config) (b : Byte) : ClockModeView :=
  match clockModeOf c b with
  | some m => .known m
  | none => .unrecognized

/-- `view(B, c)` (R90): total, no domain checked. -/
def view (cfg : Config) (b : Record) (c : Byte) : View where
  schedEnabled := b.schedEnabled
  statusOther := b.status &&& 0xF7
  unitsCelsius := b.unitsCelsius
  preBoil := b.preBoil
  controlOther := b.control &&& 0xF5
  altitudeM := b.altitudeM
  altMarker := b.altMarker
  targetT2 := b.targetT2
  byte5 := b.byte5
  schedT2 := b.schedT2
  byte7 := b.byte7
  schedMinute := b.schedMin
  schedHour := b.schedHour
  clockMinute := b.clockMin
  clockHour := b.clockHour
  clockModeRaw := b.clockMode
  clockMode := clockModeView cfg b.clockMode
  holdMin := b.hold
  chime := b.chime
  languageRaw := b.language
  languageKnown := languageOk cfg b.language
  counter := c
  counterRaw := b.counter
  schedSubmode := b.schedSubmode
  schedMode := b.schedMode

/-- The read was long enough: `rx_len >= 17` (R91). -/
def lengthOk (len : Byte) : Bool := decide (Config.recLen ≤ len.toNat)

/-- `decode(B, len)` (R91): none is DecodeError. -/
def decodeRead (cfg : Config) (b : Record) (len : Byte) : Option View :=
  if lengthOk len then some (view cfg b b.counter) else none

/-! ### Pack -/

/-- The altitude step of pack: the lower 30 m bucket of what the buffer holds, marker set (R122). -/
def Record.rebucket (t : Record) : Record := t.withAltitude t.altitudeM

/-- The sentinel step of pack: a disabled schedule's temperature, minute and hour (R123). -/
def Record.sentinel (t : Record) : Record :=
  if t.schedEnabled then t
  else { t with schedT2 := Config.sentTemp, schedMin := Config.sentMin, schedHour := Config.sentHour }

/-- The counter step of pack: the increment, then the submode bit if the schedule is enabled (R124, R125). -/
def Record.stampCounter (t : Record) (c : Byte) (sm : Bool) : Record :=
  { t with counter := wireCounter (c + 1) t.schedEnabled sm }

/-- `pack(R, c, upd, sm)` (R121). -/
def pack (r : Record) (c : Byte) (upd : Record → Record) (sm : Bool) : Record :=
  ((upd r).rebucket.sentinel).stampCounter c sm

/-- `upd_dis` (R182). -/
def updDisable (t : Record) : Record := t.clearEnabled

/-- `upd_en` of a latched request (R183). The submode goes in by pack's `sm`. -/
def updEnable (l : Latched) (t : Record) : Record :=
  { t.setEnabled with schedT2 := l.t2, schedMin := l.minute, schedHour := l.hour }

/-! ### Results -/

/-- `raise <Error>(info)`: the one way an error is taken. `RES` is written, `res_valid` pulses, nothing is
saved, no view is driven and no other state changes (R8, R250). There is no return from one (R251). -/
def State.raise (s : State) (e : ResultCode) (info : Byte) : State :=
  { s with res := { code := e.code, info := info }, resValid := true, viewPort := none }

/-- `complete OK` with a view on the `view` port (R8, R70). -/
def State.completeOk (s : State) (v : View) : State :=
  { s with res := { code := ResultCode.ok.code, info := 0x00 }, resValid := true, viewPort := some v }

/-- `complete OK` with the view of the cached record (R8, R70). -/
def State.completeWithRecord (s : State) : State := s.completeOk (view s.cfg s.record s.ctr)

/-! ### The write protocol's actions -/

/-- `cmd_ready = (phase == IDLE)` (R217). -/
def State.cmdReady (s : State) : Bool := decide (s.phase = .idle)

/-- A physical write awaits its answer (R14). -/
def State.writeInFlight (s : State) : Bool :=
  match s.phase with
  | .waitSingle => true
  | .waitStep1 => true
  | .waitStep3 => true
  | .idle => false
  | .settle => false

/-- `tx_buf` while `tx_valid` is high (R6, R127); none while it is low (U13). -/
def State.txPort (s : State) : Option Record := if s.txValid then some s.txb else none

/-- `issue_write(T)` and the phase its caller sets (R127). -/
def State.issueWrite (s : State) (t : Record) (p : Phase) : State :=
  { s with txb := t, txValid := true, phase := p }

/-- What a commit puts in `CTR`, by `CTR_FEEDBACK` (R215). -/
def nextCtr (mode : CtrFeedback) (ctr : Byte) (txb : Record) : Byte :=
  match mode with
  | .logical => ctr + 1
  | .wire => txb.counter

/-- Commit (R215): `REC` and `CTR` in one step. -/
def State.commit (s : State) : State :=
  { s with record := s.txb, ctr := nextCtr s.cfg.ctrFeedback s.ctr s.txb }

/-- Discard (R216). -/
def State.discard (s : State) : State := { s with recValid := false }

/-- `phase <- X` (R8). -/
def State.toPhase (s : State) (p : Phase) : State := { s with phase := p }

/-- Doc step (2) begins: `settle_cnt <- SETTLE_TICKS; phase <- SETTLE` (R211). -/
def State.startSettle (s : State) : State :=
  { s with settleCnt := BitVec.ofNat 16 s.cfg.settleTicks, phase := .settle }

/-- The effect WR_FAIL and INVALIDATE share (R212, R213). -/
def State.loseSession (s : State) : State :=
  match s.phase with
  | .waitSingle => (s.discard.toPhase .idle).raise .transportFailure 0x00
  | .waitStep1 => (s.discard.toPhase .idle).raise .transportFailure 0x00
  | .settle => (s.discard.toPhase .idle).raise .scheduleTransitionPartial 0x83
  | .waitStep3 => (s.discard.toPhase .idle).raise .scheduleTransitionPartial 0x83
  | .idle => s.discard

/-- The effect a reserved event code has: none (R220). -/
def State.ignoreEvent (s : State) : State := s

/-! ### The common shape of a command (R128) -/

/-- Acceptance (R217): a command presented while the block is busy is held and changes nothing. -/
def State.whenReady (s : State) (body : State) : State := if s.cmdReady then body else s

/-- Check 3 of R128: the first bad operand, if any, is InvalidArgument. -/
def State.checkOperand (s : State) (bad : Option FieldId) (body : State) : State :=
  match bad with
  | some f => s.raise .invalidArgument f.info
  | none => body

/-- Check 4 of R128: no cached record is NotConnected. -/
def State.checkRecord (s : State) (body : State) : State :=
  if s.recValid then body else s.raise .notConnected 0x00

/-- An illegal word that is accepted raises IllegalCommand and changes no other state (R67, R68). -/
def State.rejectIllegal (s : State) (why : Illegal) : State :=
  s.whenReady (s.raise .illegalCommand why.info)

/-- Steps 6 and 7 of R128 for a one-write command: pack the cached record with one update and issue it. -/
def State.writeOne (s : State) (upd : Record → Record) (sm : Bool) : State :=
  s.issueWrite (pack s.record s.ctr upd sm) .waitSingle

/-- A single-field setter (spec file 42): checks 3 and 4, then one write that keeps the cached submode. -/
def State.setField (s : State) (bad : Option FieldId) (upd : Record → Record) : State :=
  s.whenReady (s.checkOperand bad (s.checkRecord (s.writeOne upd s.record.schedSubmode)))

/-! ### Ports and agents -/

/-- Both strobes are one-step pulses: they are low unless this step raises them (R6, R8, R127; log entry 10). -/
def State.lowerStrobes (s : State) : State :=
  { s with resValid := false, txValid := false, viewPort := none }

/-- Ports on which nothing is presented. -/
def Ports.silent (p : Ports) : Ports := { p with reset := false, cmd := none, ev := none }

/-- Time moves on to what the agents present next; after the last of it they present nothing (DESIGN CHOICE, log entry 2). -/
def State.advance (s : State) : State :=
  match s.env with
  | [] => { s with ports := s.ports.silent }
  | p :: ps => { s with ports := p, env := ps }

/-- Reset of a running block (R280): every register as after `State.reset`; the parameters and the agents are outside it. -/
def State.resetBlock (s : State) : State :=
  { State.reset with cfg := s.cfg, ports := s.ports, env := s.env }

/-- Ports on which one command word or one event is presented so that the step takes it: an event needs no
change of the command port, which it goes before (R218). -/
def Ports.presenting (p : Ports) (x : PortWord) : Ports :=
  match x with
  | .cmd w => { p with reset := false, cmd := some w, ev := none }
  | .ev c => { p with reset := false, ev := some c }

/-- The buffer port after a transport read: its first 17 bytes, and its length saturated at 255 (R6, R16, D29). -/
def Ports.afterRead (p : Ports) (bytes : List Byte) : Ports :=
  { p with
    rxBuf := Record.ofBytes fun i => bytes.getD i.val (Config.unreadRxByte i.val)
    rxLen := BitVec.ofNat 8 (min bytes.length 255) }

/-- The state whose agents present the given words, one a step, and nothing after them. -/
def State.driven (s : State) (words : List PortWord) : State :=
  match words.map s.ports.silent.presenting with
  | [] => { s with ports := s.ports.silent, env := [] }
  | p :: ps => { s with ports := p, env := ps }

/-- What a step takes from the ports. -/
inductive Taken where
  /-- reset (R280) -/
  | reset
  /-- nothing is presented -/
  | nothing
  /-- a command word with no meaning (R67, R68) -/
  | illegal (why : Illegal)
  /-- an event, or a legal command word -/
  | run (i : Instr)
deriving DecidableEq, Repr

/-- A decoded port word as something to take. -/
def Taken.ofDecoded : Decoded → Taken
  | .ok i => .run i
  | .illegal why => .illegal why

/-- The event is taken before the command; at most one of the two in a step (R5, R218). Reset goes before both (DESIGN CHOICE,
log entry 3). -/
def State.take (s : State) : Taken :=
  if s.ports.reset then .reset
  else match s.ports.ev with
    | some c => Taken.ofDecoded (decode (.ev c))
    | none =>
      match s.ports.cmd with
      | some w => Taken.ofDecoded (decode (.cmd w))
      | none => .nothing

/-- A function of the next state, if there is one. -/
def mapNext (f : State → State) : Outcome → Outcome
  | .next s => .next (f s)
  | .fault r => .fault r
  | .refused r => .refused r

end Sys2Proof.Machine
end

