-- ==== Sys2Proof/Machine/Schedule.lean ====
section
/-! DEFINITION. The schedule commands (spec file 43): one write, or the first of two. -/

namespace Sys2Proof.Machine

/-- The one disable write of a request with target Off (R182, R184, R185). -/
def State.disableOne (s : State) : State := s.writeOne updDisable false

/-- The one enable write of a request (R183, R184). -/
def State.enableOne (s : State) (l : Latched) : State := s.writeOne (updEnable l) l.submode

/-- The first write of a two-step change: the request is latched and the disable buffer issued (R184, R186). -/
def State.beginTwoStep (s : State) (l : Latched) : State :=
  { s with lat := l }.issueWrite (pack s.record s.ctr updDisable false) .waitStep1

/-- The third step of a two-step change: the enable buffer, from the record step (1) committed and the latched request (R186, R214). -/
def State.issueStep3 (s : State) : State :=
  s.issueWrite (pack s.record s.ctr (updEnable s.lat) s.lat.submode) .waitStep3

/-- One write when the schedule is off or already in the target mode, two when it is in the other (R181, R184). -/
def State.enableOrSwitch (s : State) (target : SchedMode) (l : Latched) : State :=
  if s.record.schedMode = .off ∨ s.record.schedMode = target then s.enableOne l else s.beginTwoStep l

/-- The writes of a request by its target mode (R181, R184). -/
def State.changeSchedule (s : State) (target : SchedMode) (hour minute : Byte) (t2 : Int) : State :=
  match target with
  | .off => s.disableOne
  | .once => s.enableOrSwitch .once { submode := true, hour := hour, minute := minute, t2 := clampT2 t2 }
  | .daily => s.enableOrSwitch .daily { submode := false, hour := hour, minute := minute, t2 := clampT2 t2 }

/-- SET_SCHEDULE (R184). A mode of 3 is InvalidArgument (`badSchedule`). -/
def execSetSchedule (mode : BitVec 2) (hour minute : Byte) (t2 : Int) (s : State) : Outcome :=
  .next <| s.whenReady <| s.checkOperand (badSchedule mode hour minute) <| s.checkRecord <|
    match schedModeOfCode mode with
    | some target => s.changeSchedule target hour minute t2
    | none => s

/-- DISABLE_SCHEDULE (R185). -/
def execDisableSchedule (s : State) : Outcome :=
  .next <| s.whenReady <| s.checkRecord s.disableOne

end Sys2Proof.Machine
end

