-- ==== Sys2Proof/Machine/Setters.lean ====
section
/-! DEFINITION. The single-field setters (spec file 42): each replaces one field of the cached record and issues one write. -/

namespace Sys2Proof.Machine

/-- SET_TARGET_TEMP (R150): byte 4. -/
def execSetTargetTemp (t2 : Int) (s : State) : Outcome :=
  .next <| s.setField none fun t => { t with targetT2 := clampT2 t2 }

/-- SET_HOLD_TIME (R151): byte 13, written as it is after the clamp. -/
def execSetHoldTime (minutes : Int) (s : State) : Outcome :=
  .next <| s.setField none fun t => { t with hold := clampHold minutes }

/-- SET_CHIME_VOLUME (R152): byte 14. -/
def execSetChimeVolume (level : Int) (s : State) : Outcome :=
  .next <| s.setField none fun t => { t with chime := clampChime level }

/-- SET_PRE_BOIL (R153): bit 3 of byte 1. -/
def execSetPreBoil (enabled : Bool) (s : State) : Outcome :=
  .next <| s.setField none fun t => t.setPreBoil enabled

/-- SET_ALTITUDE (R154): bytes 2 and 3. -/
def execSetAltitude (metres : Int) (s : State) : Outcome :=
  .next <| s.setField none fun t => t.withAltitude (altitudeOperand s.cfg.altSetRound metres)

/-- SET_CLOCK without a mode (R155): byte 10 the minute, byte 11 the hour. -/
def execSetClock (hour minute : Byte) (s : State) : Outcome :=
  .next <| s.setField (badTime hour minute) fun t => { t with clockMin := minute, clockHour := hour }

/-- SET_CLOCK with a mode (R155): bytes 10, 11 and 12. -/
def execSetClockMode (hour minute mode : Byte) (s : State) : Outcome :=
  .next <| s.setField (badClockMode s.cfg hour minute mode) fun t =>
    { t with clockMin := minute, clockHour := hour, clockMode := mode }

/-- SET_LANGUAGE (R156): byte 15. -/
def execSetLanguage (code : Byte) (s : State) : Outcome :=
  .next <| s.setField (badLanguage s.cfg code) fun t => { t with language := code }

end Sys2Proof.Machine
end

