-- ==== Sys2Proof/Machine/Unpack.lean ====
section
/-! DEFINITION. The unpack family: DECODE, LOAD, GET_STATE (spec file 40). -/

namespace Sys2Proof.Machine

/-- DECODE (R92): the view of the buffer on `rx_buf`, no state but `RES`. -/
def execDecode (s : State) : Outcome :=
  .next <| s.whenReady <|
    match decodeRead s.cfg s.ports.rxBuf s.ports.rxLen with
    | none => s.raise .decodeError 0x00
    | some v => s.completeOk v

/-- The three writes of a successful LOAD, in one step (R93). -/
def State.fill (s : State) (b : Record) : State := { s with record := b, ctr := b.counter, recValid := true }

/-- LOAD (R93): the cached record and `CTR` from `rx_buf`; a short buffer discards the record. -/
def execLoad (s : State) : Outcome :=
  .next <| s.whenReady <|
    if lengthOk s.ports.rxLen then (s.fill s.ports.rxBuf).completeWithRecord
    else s.discard.raise .decodeError 0x00

/-- GET_STATE (R94): the view of the cached record. -/
def execGetState (s : State) : Outcome :=
  .next <| s.whenReady <| s.checkRecord s.completeWithRecord

end Sys2Proof.Machine
end

