-- ==== Sys2Proof/Machine/WriteProtocol.lean ====
section
/-! DEFINITION. The events (spec file 44): what each does in each phase. -/

namespace Sys2Proof.Machine

/-- WR_ACK (R211). -/
def execWrAck (s : State) : Outcome :=
  .next <|
    match s.phase with
    | .waitSingle => (s.commit.toPhase .idle).completeWithRecord
    | .waitStep1 => s.commit.startSettle
    | .waitStep3 => (s.commit.toPhase .idle).completeWithRecord
    | .idle => s
    | .settle => s

/-- WR_FAIL (R212). -/
def execWrFail (s : State) : Outcome := .next s.loseSession

/-- INVALIDATE (R213): the effect of WR_FAIL in every phase. -/
def execInvalidate (s : State) : Outcome := .next s.loseSession

/-- One tick of the settle delay: count down, and at zero issue step (3) (R214). The count is 16 bits wide (log entry 12). -/
def State.settleTick (s : State) : State :=
  let n := s.settleCnt - 1
  if n = 0 then { s with settleCnt := n }.issueStep3 else { s with settleCnt := n }

/-- TICK (R214). -/
def execTick (s : State) : Outcome :=
  .next <|
    match s.phase with
    | .settle => s.settleTick
    | .idle => s
    | .waitSingle => s
    | .waitStep1 => s
    | .waitStep3 => s

/-- Reserved event code 0 (R220). -/
def execEvReserved0 (s : State) : Outcome := .next s.ignoreEvent

/-- Reserved event code 5 (R220). -/
def execEvReserved5 (s : State) : Outcome := .next s.ignoreEvent

/-- Reserved event code 6 (R220). -/
def execEvReserved6 (s : State) : Outcome := .next s.ignoreEvent

/-- Reserved event code 7 (R220). -/
def execEvReserved7 (s : State) : Outcome := .next s.ignoreEvent

end Sys2Proof.Machine
end

