-- ==== Sys2Proof/Machine/Dispatch.lean ====
section
/-! DEFINITION. Every instruction to its meaning. -/

namespace Sys2Proof.Machine

-- one arm per constructor of Instr, in the order of spec/opcode_table.json
def exec (i : Instr) (s : State) : Host.Outcome State Fault Refusal :=
  match i with
  | .decode => Sys2Proof.Machine.execDecode s
  | .load => Sys2Proof.Machine.execLoad s
  | .getState => Sys2Proof.Machine.execGetState s
  | .setTargetTemp t2 => Sys2Proof.Machine.execSetTargetTemp t2 s
  | .setHoldTime minutes => Sys2Proof.Machine.execSetHoldTime minutes s
  | .setChimeVolume level => Sys2Proof.Machine.execSetChimeVolume level s
  | .setPreBoil enabled => Sys2Proof.Machine.execSetPreBoil enabled s
  | .setAltitude metres => Sys2Proof.Machine.execSetAltitude metres s
  | .setClock hour minute => Sys2Proof.Machine.execSetClock hour minute s
  | .setClockMode hour minute mode => Sys2Proof.Machine.execSetClockMode hour minute mode s
  | .setLanguage code => Sys2Proof.Machine.execSetLanguage code s
  | .setSchedule mode hour minute t2 => Sys2Proof.Machine.execSetSchedule mode hour minute t2 s
  | .disableSchedule => Sys2Proof.Machine.execDisableSchedule s
  | .wrAck => Sys2Proof.Machine.execWrAck s
  | .wrFail => Sys2Proof.Machine.execWrFail s
  | .tick => Sys2Proof.Machine.execTick s
  | .invalidate => Sys2Proof.Machine.execInvalidate s
  | .evReserved0 => Sys2Proof.Machine.execEvReserved0 s
  | .evReserved5 => Sys2Proof.Machine.execEvReserved5 s
  | .evReserved6 => Sys2Proof.Machine.execEvReserved6 s
  | .evReserved7 => Sys2Proof.Machine.execEvReserved7 s

end Sys2Proof.Machine
end

