-- ==== Sys2Proof/Machine/Step.lean ====
section
/-! DEFINITION. One step of the block (R5): strobes fall, one thing is taken from the ports and has its whole effect, the agents
move on to what they present next. -/

namespace Sys2Proof.Machine

/-- One step (R5, R210, R218). A step in which nothing is presented only lowers the strobes
(DESIGN CHOICE, log entry 11). -/
def step (s : State) : Host.Outcome State Fault Refusal :=
  match s.take with
  | .reset => .next s.resetBlock.advance
  | .nothing => .next s.lowerStrobes.advance
  | .illegal why => .next (s.lowerStrobes.rejectIllegal why).advance
  | .run i => mapNext State.advance (exec i s.lowerStrobes)

/-- The state with an opcode-table row's word presented on its port, so that the next step takes it: an event
code for the 3-bit rows, a command word otherwise (log entry 2). -/
def State.withFetchWord (s : State) (nbits w : Nat) : State :=
  let x : PortWord := if nbits ≤ 8 then .ev (BitVec.ofNat 3 w) else .cmd (BitVec.ofNat 64 w)
  { s with ports := s.ports.presenting x }

end Sys2Proof.Machine
end

