-- ==== Sys2Proof/Safety.lean ====
section
/-! DEFINITION. The terms claims are stated in: canonical buffers, the block's invariant, runs and what is counted along
them, and the states that no rule tells apart. -/

namespace Sys2Proof.Machine

/-! ### Buffers and registers -/

/-- What every written buffer looks like (R97): the marker set, the altitude a multiple of 30, and the sentinel bytes of a
disabled schedule. -/
structure Record.Canonical (t : Record) : Prop where
  marker : t.altMarker = true
  bucket : t.raw15.toNat % Config.altStep = 0
  sentinel : t.schedEnabled = false →
    t.schedT2 = Config.sentTemp ∧ t.schedMin = Config.sentMin ∧ t.schedHour = Config.sentHour

/-- Two records agree on the content no command can change: bytes 5 and 7, every bit of STATUS but the enabled bit,
every bit of CONTROL but the pre-boil bit, so also the units flag (R20, R24, R157). -/
structure Record.SameUncommanded (t r : Record) : Prop where
  status : t.status &&& 0xF7 = r.status &&& 0xF7
  control : t.control &&& 0xF7 = r.control &&& 0xF7
  byte5 : t.byte5 = r.byte5
  byte7 : t.byte7 = r.byte7

/-- The phases in which `LAT` has meaning (R17). -/
def State.latched (s : State) : Bool :=
  match s.phase with
  | .waitStep1 => true
  | .settle => true
  | .idle => false
  | .waitSingle => false
  | .waitStep3 => false

/-- The bytes of the record a command's own field update may write (spec files 42 and 43). The altitude, the sentinel
bytes and the counter are written by every pack besides (R121). -/
def commandedBytes : Instr → List (Fin 17)
  | .setTargetTemp _ => [4]
  | .setHoldTime _ => [13]
  | .setChimeVolume _ => [14]
  | .setPreBoil _ => [1]
  | .setAltitude _ => [2, 3]
  | .setClock _ _ => [10, 11]
  | .setClockMode _ _ _ => [10, 11, 12]
  | .setLanguage _ => [15]
  | .setSchedule _ _ _ _ => [0, 6, 8, 9]
  | .disableSchedule => [0]
  | .decode | .load | .getState => []
  | .wrAck | .wrFail | .tick | .invalidate => []
  | .evReserved0 | .evReserved5 | .evReserved6 | .evReserved7 => []

/-! ### What a command does -/

/-- The state after an error with the given result: `RES` and its strobe, no view, nothing else (R250). -/
def State.withError (s : State) (code info : Byte) : State :=
  { s with res := { code := code, info := info }, resValid := true, viewPort := none }

/-- The state after `complete OK` with the given view (R8). -/
def State.withResult (s : State) (v : View) : State :=
  { s with res := { code := 0x00, info := 0x00 }, resValid := true, viewPort := some v }

/-- The state after the one write of a buffer (R127, R128 step 7). -/
def State.withWrite (s : State) (t : Record) (p : Phase) : State := { s with txb := t, txValid := true, phase := p }

/-- A setter whose operands need no check, by phase and presence of the record (R128, R217): held while busy,
NotConnected without a record, and otherwise one write that keeps the cached submode. -/
def WritesOneField (i : Instr) (upd : State → Record → Record) : Prop :=
  ∀ s : State,
    (s.phase ≠ .idle → exec i s = .next s) ∧
    (s.phase = .idle → s.recValid = false → exec i s = .next (s.withError 0x01 0x00)) ∧
    (s.phase = .idle → s.recValid = true →
      exec i s = .next (s.withWrite (pack s.record s.ctr (upd s) (bitOf (s.record.byte 16) 3)) .waitSingle))

/-! ### The invariant of the block -/

/-- Byte 16 of the buffer in flight: the incremented counter, bit 3 the submode if the buffer's schedule is enabled
(R124, R125, R219). -/
abbrev State.CarriesNextCounter (s : State) : Prop :=
  s.writeInFlight = true → s.txb.counter = wireCounter (s.ctr + 1) s.txb.schedEnabled s.txb.schedSubmode

/-- What holds in every state a run can reach, and rules out the others (R10 to R18, R186, R214). -/
structure BlockInv (s : State) : Prop where
  /-- the parameters are legal (R4) -/
  legal : s.cfg.Legal
  /-- outside `IDLE` the cached record is present (R128, R216) -/
  recordPresent : s.phase ≠ .idle → s.recValid = true
  /-- the buffer in flight is canonical (R97) -/
  txCanonical : s.writeInFlight = true → s.txb.Canonical
  /-- the buffer in flight carries what no command changes (R24) -/
  txCarries : s.writeInFlight = true → s.txb.SameUncommanded s.record
  /-- the buffer in flight carries the incremented counter, bit 3 the submode if enabled (R124, R125) -/
  txCounter : s.CarriesNextCounter
  /-- step (1) writes a disabled schedule (R186) -/
  step1Disables : s.phase = .waitStep1 → s.txb.schedEnabled = false
  /-- during the settle delay and step (3) the cached record is the disabled one (R186) -/
  settledOff : s.phase = .settle ∨ s.phase = .waitStep3 → s.record.schedEnabled = false
  /-- step (3) writes an enabled schedule (R186) -/
  step3Enables : s.phase = .waitStep3 → s.txb.schedEnabled = true
  /-- the settle counter is between 1 and `SETTLE_TICKS` (R214) -/
  settleCounts : s.phase = .settle → 1 ≤ s.settleCnt.toNat ∧ s.settleCnt.toNat ≤ s.cfg.settleTicks
  /-- the latched request is inside its domain (R184) -/
  latchedDomain : s.latched = true → s.lat.hour.toNat ≤ 23 ∧ s.lat.minute.toNat ≤ 59 ∧ s.lat.t2.toNat ≤ 200
  /-- with `CTR_FEEDBACK = WIRE` the counter register is byte 16 of the cached record (R13) -/
  wireCtr : s.cfg.ctrFeedback = .wire → s.recValid = true → s.ctr = s.record.counter

/-! ### Runs -/

/-- `n` steps. -/
def runSteps : Nat → State → Outcome
  | 0, s => .next s
  | n + 1, s =>
    match step s with
    | .next t => runSteps n t
    | .fault r => .fault r
    | .refused r => .refused r

/-- An instruction's meaning applied `n` times, the strobes lowered before each as a step does. -/
def execTimes (i : Instr) : Nat → State → Outcome
  | 0, s => .next s
  | n + 1, s =>
    match exec i s.lowerStrobes with
    | .next t => execTimes i n t
    | .fault r => .fault r
    | .refused r => .refused r

/-- This step takes the acknowledgment of a write in flight (R219). -/
def State.ackTaken (s : State) : Bool := decide (s.take = .run .wrAck) && s.writeInFlight

/-- This step is no reset, no WR_FAIL, no INVALIDATE and no accepted LOAD (R219). -/
def State.undisturbed (s : State) : Bool :=
  decide (s.take ≠ .reset) && decide (s.take ≠ .run .wrFail) && decide (s.take ≠ .run .invalidate)
    && (decide (s.take ≠ .run .load) || !s.cmdReady)

/-- Each of the next `n` steps is undisturbed. -/
def UndisturbedRun : Nat → State → Prop
  | 0, _ => True
  | n + 1, s => s.undisturbed = true ∧ ∀ t, step s = .next t → UndisturbedRun n t

/-- How many writes are acknowledged in the next `n` steps (R219). -/
def ackedWrites : Nat → State → Nat
  | 0, _ => 0
  | n + 1, s =>
    (if s.ackTaken then 1 else 0) +
      match step s with
      | .next t => ackedWrites n t
      | .fault _ => 0
      | .refused _ => 0

/-! ### States no rule tells apart -/

/-- The two states differ at most in registers that have no meaning where they differ: `REC` and `CTR` without a cached
record (R12), `TXB` with no write in flight (R15), `LAT` outside WAIT_STEP1 and SETTLE (R17), `settle_cnt` outside SETTLE
(R18). -/
structure SameMeaning (s s' : State) : Prop where
  recValid : s.recValid = s'.recValid
  phase : s.phase = s'.phase
  res : s.res = s'.res
  resValid : s.resValid = s'.resValid
  txValid : s.txValid = s'.txValid
  viewPort : s.viewPort = s'.viewPort
  cfg : s.cfg = s'.cfg
  ports : s.ports = s'.ports
  env : s.env = s'.env
  cache : s.recValid = true → s.record = s'.record ∧ s.ctr = s'.ctr
  txb : s.writeInFlight = true → s.txb = s'.txb
  lat : s.latched = true → s.lat = s'.lat
  settleCnt : s.phase = .settle → s.settleCnt = s'.settleCnt

end Sys2Proof.Machine
end

