-- ==== Sys2Proof/Certificates/Slice0/Obligations.lean ====
section
/-! DEFINITION. The statements about the block, by family. Names say what is stated; docstrings name the rules. -/

open Sys2Proof Sys2Proof.Machine

/-! ### Encoding -/

/-- Tier 3 (R64 to R69). Every instruction that has an encoding is decoded from it, operands and all. -/
def Obligations.DecodeOfEncodeIsTheInstruction : Prop :=
  ∀ i : Instr, i.wf = true → decode (encode i) = .ok i

/-- Tier 3 (R64 to R69). Every port word the decoder accepts is the one encoding of the instruction it gives. -/
def Obligations.EncodeOfDecodeIsThePortWord : Prop :=
  ∀ (p : PortWord) (i : Instr), decode p = .ok i → i.wf = true ∧ encode i = p

/-- R66: a command word is legal exactly when it matches one CW64 row, the rows do not overlap, and the
row matched is the instruction's own. -/
def Obligations.LegalWordsAreExactlyTheTableRows : Prop :=
  ∀ w : CmdWord,
    ((∃ i, decodeCommand w = .ok i) ↔ ∃ row ∈ cmdRows, row.matchesWord w = true) ∧
    (∀ r ∈ cmdRows, ∀ r' ∈ cmdRows, r.matchesWord w = true → r'.matchesWord w = true → r = r') ∧
    (∀ i, decodeCommand w = .ok i → ∃ row, cmdRow i = some row ∧ row.matchesWord w = true)

/-- R68: an opcode that is not in R66 raises IllegalCommand(0x01) and changes no other state, so no such word is a no-op. -/
def Obligations.UnknownOpcodeRaisesIllegalCommand : Prop :=
  ∀ (s : State) (w : CmdWord), s.ports.reset = false → s.ports.ev = none → s.ports.cmd = some w → s.phase = .idle →
    w.extractLsb' 56 8 ∉ ([0x01, 0x02, 0x03, 0x10, 0x11, 0x12, 0x13, 0x14, 0x15, 0x16, 0x17, 0x18] : List Byte) →
    step s = .next (s.lowerStrobes.withError 0x07 0x01).advance

/-- R67: a legal opcode with a nonzero bit in a must-be-zero field raises IllegalCommand(0x02) and changes no other
state. That a must-be-zero bit is nonzero is said by the opcode table's rows: no row matches. -/
def Obligations.NonzeroReservedFieldRaisesIllegalCommand : Prop :=
  ∀ (s : State) (w : CmdWord), s.ports.reset = false → s.ports.ev = none → s.ports.cmd = some w → s.phase = .idle →
    w.extractLsb' 56 8 ∈ ([0x01, 0x02, 0x03, 0x10, 0x11, 0x12, 0x13, 0x14, 0x15, 0x16, 0x17, 0x18] : List Byte) →
    (∀ row ∈ cmdRows, row.matchesWord w = false) →
    step s = .next (s.lowerStrobes.withError 0x07 0x02).advance

/-- Sanity (R66, R69): words written out from the spec decode to the instructions they stand for. -/
def Obligations.WordsWrittenOutDecode : Prop :=
  decode (.cmd 0x0100000000000000) = .ok .decode ∧
  decode (.cmd 0x0200000000000000) = .ok .load ∧
  decode (.cmd 0x1000006F00000000) = .ok (.setTargetTemp 111) ∧
  decode (.cmd 0x1100FFFB00000000) = .ok (.setHoldTime (-5)) ∧
  decode (.cmd 0x1301000000000000) = .ok (.setPreBoil true) ∧
  decode (.cmd 0x15010000062D0200) = .ok (.setClockMode 6 45 2) ∧
  decode (.cmd 0x170100B4071E0000) = .ok (.setSchedule 1 7 30 180) ∧
  decode (.cmd 0x1800000000000000) = .ok .disableSchedule ∧
  decode (.ev 1) = .ok .wrAck ∧ decode (.ev 2) = .ok .wrFail ∧ decode (.ev 3) = .ok .tick ∧ decode (.ev 4) = .ok .invalidate

/-! ### The step -/

/-- R5, R210: the step runs the instruction the port word decodes to, once the strobes are low, and then the agents move on
(how they do is the model's own, log entry 2). -/
def Obligations.StepRunsTheDecodedInstruction : Prop :=
  ∀ (s : State) (i : Instr), s.ports.reset = false →
    ((∃ c, s.ports.ev = some c ∧ decode (.ev c) = .ok i) ∨
      (s.ports.ev = none ∧ ∃ w, s.ports.cmd = some w ∧ decode (.cmd w) = .ok i)) →
    ∃ t, exec i s.lowerStrobes = .next t ∧ step s = .next t.advance ∧ t.ports = s.ports ∧ t.env = s.env ∧
      (∀ p ps, s.env = p :: ps → t.advance = { t with ports := p, env := ps }) ∧
      (s.env = [] → t.advance = { t with ports := { s.ports with reset := false, cmd := none, ev := none } })

/-- R218: an event presented with a command is taken first, as if the command were not there, and the command, if the
host still presents it, is taken in the next step against the state the event left
(what is presented next is the model's list of log entry 2). -/
def Obligations.EventIsTakenBeforeACommand : Prop :=
  ∀ (s : State) (c : EvCode) (w : CmdWord), s.ports.reset = false → s.ports.ev = some c → s.ports.cmd = some w →
    step s = step { s with ports := { s.ports with cmd := none } } ∧
    ∀ (p : Ports) (ps : List Ports) (i : Instr), s.env = p :: ps → p.reset = false → p.ev = none → p.cmd = some w →
      decodeCommand w = .ok i →
      ∃ u t v, exec (decodeEvent c) s.lowerStrobes = .next u ∧ step s = .next t ∧
        t = { u with ports := p, env := ps } ∧ exec i t.lowerStrobes = .next v ∧ step t = .next v.advance

/-- R217: `cmd_ready` is `phase == IDLE`; a command presented while it is low is held without effect; one presented
while it is high is taken; and only WR_ACK, WR_FAIL or INVALIDATE (or reset, log entry 3) returns the block to IDLE. -/
def Obligations.BusyBlockHoldsCommands : Prop :=
  ∀ (s : State) (w : CmdWord),
    (s.cmdReady = true ↔ s.phase = .idle) ∧
    (s.ports.reset = false → s.ports.ev = none → s.ports.cmd = some w →
      (s.phase ≠ .idle → step s = .next s.lowerStrobes.advance) ∧
      (s.phase = .idle → ∀ i, decodeCommand w = .ok i → ∃ u, exec i s.lowerStrobes = .next u ∧ step s = .next u.advance) ∧
      (s.phase = .idle → ∀ why, decodeCommand w = .illegal why →
        step s = .next (s.lowerStrobes.withError 0x07 why.info).advance)) ∧
    (∀ t, step s = .next t → s.phase ≠ .idle → t.phase = .idle →
      s.take = .reset ∨ s.take = .run .wrAck ∨ s.take = .run .wrFail ∨ s.take = .run .invalidate)

/-- R247, R284: every step of the block has a next state: no command word and no event, in any phase, stops it. -/
def Obligations.EveryStepHasANextState : Prop :=
  ∀ s : State, ∃ t, step s = .next t

/-! ### Unpack -/

/-- R90: every field of the view, from the bytes of the buffer. -/
def Obligations.ViewReportsEveryField : Prop :=
  ∀ (cfg : Config) (b : Record) (c : Byte),
    let raw := (b.byte 2).toNat ||| (((b.byte 3).toNat &&& 0x7F) <<< 8)
    let v := view cfg b c
    v.schedEnabled = (b.byte 0).getLsbD 3 ∧ v.statusOther = b.byte 0 &&& 0xF7 ∧
    v.unitsCelsius = (b.byte 1).getLsbD 1 ∧ v.preBoil = (b.byte 1).getLsbD 3 ∧ v.controlOther = b.byte 1 &&& 0xF5 ∧
    v.altitudeM.toNat = raw - raw % 30 ∧ v.altMarker = (b.byte 3).getLsbD 7 ∧
    v.targetT2 = b.byte 4 ∧ v.byte5 = b.byte 5 ∧ v.schedT2 = b.byte 6 ∧ v.byte7 = b.byte 7 ∧
    v.schedMinute = b.byte 8 ∧ v.schedHour = b.byte 9 ∧ v.clockMinute = b.byte 10 ∧ v.clockHour = b.byte 11 ∧
    v.clockModeRaw = b.byte 12 ∧
    (∀ m, cfg.clockModeCodes.lookup (b.byte 12) = some m → v.clockMode = .known m) ∧
    (cfg.clockModeCodes.lookup (b.byte 12) = none → v.clockMode = .unrecognized) ∧
    v.holdMin = b.byte 13 ∧ v.chime = b.byte 14 ∧ v.languageRaw = b.byte 15 ∧
    (v.languageKnown = true ↔ b.byte 15 ∈ cfg.langSet) ∧
    v.counter = c ∧ v.counterRaw = b.byte 16 ∧ v.schedSubmode = (b.byte 16).getLsbD 3 ∧ v.schedMode = b.schedMode

/-- R95: the schedule mode of a buffer, from bit 3 of byte 0 and, only if that is set, bit 3 of byte 16; no other
content is consulted. -/
def Obligations.ScheduleModeComesFromTwoBits : Prop :=
  ∀ b : Record,
    ((b.byte 0).getLsbD 3 = false → b.schedMode = .off) ∧
    ((b.byte 0).getLsbD 3 = true → (b.byte 16).getLsbD 3 = true → b.schedMode = .once) ∧
    ((b.byte 0).getLsbD 3 = true → (b.byte 16).getLsbD 3 = false → b.schedMode = .daily) ∧
    SchedMode.off.code = 0 ∧ SchedMode.once.code = 1 ∧ SchedMode.daily.code = 2

/-- R91: decoding a buffer fails exactly when fewer than 17 bytes were read, and otherwise is the view with byte 16 as
the counter; bytes from offset 17 on play no part. -/
def Obligations.DecodingFailsOnlyOnLength : Prop :=
  (∀ (cfg : Config) (b : Record) (len : Byte),
    (len.toNat < 17 → decodeRead cfg b len = none) ∧ (17 ≤ len.toNat → decodeRead cfg b len = some (view cfg b (b.byte 16)))) ∧
  (∀ (cfg : Config) (p : Ports) (bytes rest : List Byte), bytes.length = 17 →
    decodeRead cfg (p.afterRead (bytes ++ rest)).rxBuf (p.afterRead (bytes ++ rest)).rxLen =
      decodeRead cfg (p.afterRead bytes).rxBuf (p.afterRead bytes).rxLen)

/-- R92: DECODE, accepted only in IDLE: the view of `rx_buf`, or DecodeError; `RES` and its outputs are all it writes. -/
def Obligations.DecodeCommandViewsTheBuffer : Prop :=
  ∀ s : State,
    (s.phase ≠ .idle → exec .decode s = .next s) ∧
    (s.phase = .idle → s.ports.rxLen.toNat < 17 → exec .decode s = .next (s.withError 0x06 0x00)) ∧
    (s.phase = .idle → 17 ≤ s.ports.rxLen.toNat →
      exec .decode s = .next (s.withResult (view s.cfg s.ports.rxBuf (s.ports.rxBuf.byte 16))))

/-- R93: LOAD, accepted only in IDLE: `REC`, `CTR` and `rec_valid` from `rx_buf` as read, or DecodeError and discard. -/
def Obligations.LoadReplacesTheCachedRecord : Prop :=
  ∀ s : State,
    (s.phase ≠ .idle → exec .load s = .next s) ∧
    (s.phase = .idle → s.ports.rxLen.toNat < 17 →
      exec .load s = .next ({ s with recValid := false }.withError 0x06 0x00)) ∧
    (s.phase = .idle → 17 ≤ s.ports.rxLen.toNat →
      exec .load s = .next ({ s with record := s.ports.rxBuf, ctr := s.ports.rxBuf.byte 16, recValid := true }.withResult
        (view s.cfg s.ports.rxBuf (s.ports.rxBuf.byte 16))))

/-- R94: GET_STATE, accepted only in IDLE: the view of the cached record, or NotConnected. -/
def Obligations.GetStateViewsTheCachedRecord : Prop :=
  ∀ s : State,
    (s.phase ≠ .idle → exec .getState s = .next s) ∧
    (s.phase = .idle → s.recValid = false → exec .getState s = .next (s.withError 0x01 0x00)) ∧
    (s.phase = .idle → s.recValid = true → exec .getState s = .next (s.withResult (view s.cfg s.record s.ctr)))

/-- R97: the laws of `view` and of every packed buffer. -/
def Obligations.PackedBuffersAreCanonical : Prop :=
  (∀ (cfg : Config) (p : Ports) (bs bs' : List Byte) (c : Byte), 17 ≤ bs.length → 17 ≤ bs'.length →
    bs.take 17 = bs'.take 17 → view cfg (p.afterRead bs).rxBuf c = view cfg (p.afterRead bs').rxBuf c) ∧
  (∀ (cfg : Config) (r : Record) (c c' : Byte) (upd : Record → Record) (sm : Bool),
    let t := pack r c upd sm
    (t.byte 3).getLsbD 7 = true ∧ (view cfg t c').altitudeM.toNat % 30 = 0 ∧ (view cfg t c').altitudeM = t.raw15 ∧
    ((t.byte 0).getLsbD 3 = false → t.byte 6 = 0xC0 ∧ t.byte 8 = 0 ∧ t.byte 9 = 0))

/-- R45: DECODE and GET_STATE change no state but `RES` and the outputs that go with it. -/
def Obligations.ReadsHaveNoSideEffects : Prop :=
  ∀ (i : Instr) (s t : State), i = .decode ∨ i = .getState → exec i s = .next t →
    t = { s with res := t.res, resValid := t.resValid, viewPort := t.viewPort }

/-- R46: MemRead and MemWrite of one and of two bytes, little-endian, and no byte beside those written changes. -/
def Obligations.MemReadAndMemWriteAreLittleEndian : Prop :=
  ∀ (r : Record) (b : Byte) (v : BitVec 16),
    (∀ o : Fin 17, r.memRead1 o = r.byte o ∧ (r.memWrite1 o b).byte o = b ∧
      ∀ j : Fin 17, j ≠ o → (r.memWrite1 o b).byte j = r.byte j) ∧
    (∀ o : Fin 16, (r.memRead2 o).toNat = (r.byte o.castSucc).toNat ||| ((r.byte o.succ).toNat <<< 8) ∧
      (r.memWrite2 o v).byte o.castSucc = v.extractLsb' 0 8 ∧ (r.memWrite2 o v).byte o.succ = v.extractLsb' 8 8 ∧
      ∀ j : Fin 17, j ≠ o.castSucc → j ≠ o.succ → (r.memWrite2 o v).byte j = r.byte j)

/-! ### Pack -/

/-- R121: what pack writes in each of the seventeen bytes. -/
def Obligations.PackWritesEachByte : Prop :=
  ∀ (r : Record) (c : Byte) (upd : Record → Record) (sm : Bool),
    let u := upd r
    let t := pack r c upd sm
    let raw := (u.byte 2).toNat ||| (((u.byte 3).toNat &&& 0x7F) <<< 8)
    let a := raw - raw % 30
    (∀ j : Fin 17, j ∉ ([2, 3, 6, 8, 9, 16] : List (Fin 17)) → t.byte j = u.byte j) ∧
    (t.byte 2).toNat = a % 256 ∧ (t.byte 3).toNat = 128 + a / 256 ∧
    ((u.byte 0).getLsbD 3 = false → t.byte 6 = 0xC0 ∧ t.byte 8 = 0x00 ∧ t.byte 9 = 0x00 ∧ t.byte 16 = c + 1) ∧
    ((u.byte 0).getLsbD 3 = true → t.byte 6 = u.byte 6 ∧ t.byte 8 = u.byte 8 ∧ t.byte 9 = u.byte 9 ∧
      t.byte 16 = ((c + 1) &&& 0xF7) ||| (if sm then 0x08 else 0x00))

/-- R122: every pack writes the altitude as the multiple of 30 at or below the value the update left, with the marker
set, and packing again changes it no further. -/
def Obligations.EveryPackBucketsTheAltitude : Prop :=
  ∀ (r : Record) (c c' : Byte) (upd : Record → Record) (sm sm' : Bool),
    let t := pack r c upd sm
    t.raw15.toNat % 30 = 0 ∧ t.raw15.toNat ≤ (upd r).raw15.toNat ∧ (upd r).raw15.toNat < t.raw15.toNat + 30 ∧
    (t.byte 3).getLsbD 7 = true ∧ (pack t c' id sm').raw15 = t.raw15 ∧
    ∀ x, floor30 (floor30 x) = floor30 x

/-- R123: any write issued, by whatever instruction, has the sentinel bytes when its schedule is disabled; when it is
enabled the three bytes are as the update left them. -/
def Obligations.DisabledSchedulesCarryTheSentinel : Prop :=
  (∀ (i : Instr) (s t : State), s.txValid = false → exec i s = .next t → t.txValid = true →
    (t.txb.byte 0).getLsbD 3 = false → t.txb.byte 6 = 0xC0 ∧ t.txb.byte 8 = 0x00 ∧ t.txb.byte 9 = 0x00) ∧
  (∀ (r : Record) (c : Byte) (upd : Record → Record) (sm : Bool), ((upd r).byte 0).getLsbD 3 = true →
    (pack r c upd sm).byte 6 = (upd r).byte 6 ∧ (pack r c upd sm).byte 8 = (upd r).byte 8 ∧
    (pack r c upd sm).byte 9 = (upd r).byte 9)

/-- R63, R125: byte 16 of a packed buffer, bit by bit: the incremented counter, with bit 3 the submode (true = Once) exactly when
the buffer's schedule is enabled, and all eight bits the counter's when it is not. -/
def Obligations.SubmodeReplacesOnlyBit3OfTheCounter : Prop :=
  ∀ (r : Record) (c : Byte) (upd : Record → Record) (sm : Bool) (k : Fin 8),
    let t := pack r c upd sm
    (k ≠ 3 → (t.byte 16).getLsbD k = (c + 1).getLsbD k) ∧
    ((t.byte 0).getLsbD 3 = true → (t.byte 16).getLsbD 3 = sm) ∧
    ((t.byte 0).getLsbD 3 = false → t.byte 16 = c + 1)

/-- R120: the clamped operand is what each of the four kinds writes, and none of them is ever rejected for its value. -/
def Obligations.NumericOperandsAreClamped : Prop :=
  ∀ (s : State) (v : Int), s.phase = .idle → s.recValid = true →
    let within := fun (hi : Int) => if v < 0 then (0 : Int) else if v > hi then hi else v
    (∃ t, exec (.setTargetTemp v) s = .next t ∧ t.phase = .waitSingle ∧ ((t.txb.byte 4).toNat : Int) = within 200) ∧
    (∃ t, exec (.setHoldTime v) s = .next t ∧ t.phase = .waitSingle ∧ ((t.txb.byte 13).toNat : Int) = within 60) ∧
    (∃ t, exec (.setChimeVolume v) s = .next t ∧ t.phase = .waitSingle ∧ ((t.txb.byte 14).toNat : Int) = within 10) ∧
    (∃ t, exec (.setAltitude v) s = .next t ∧ t.phase = .waitSingle ∧
      (t.txb.raw15.toNat : Int) = (bucketAltitude s.cfg.altSetRound (within 3000).toNat : Int)) ∧
    (∀ (k : BitVec 2) (h m : Byte), k = 1 ∨ k = 2 → h.toNat ≤ 23 → m.toNat ≤ 59 →
      ∃ t, exec (.setSchedule k h m v) s = .next t ∧
        ((t.phase = .waitSingle ∧ ((t.txb.byte 6).toNat : Int) = within 200) ∨
          (t.phase = .waitStep1 ∧ (t.lat.t2.toNat : Int) = within 200)))

/-- R24, R96, R121: in the buffer a command issues, a byte that is neither the command's own nor one that every pack writes
is the cached record's. -/
def Obligations.CommandsCarryUntouchedBytes : Prop :=
  ∀ (i : Instr) (s t : State) (j : Fin 17), s.phase = .idle → exec i s = .next t → t.phase ≠ .idle →
    j ∉ commandedBytes i → j ∉ ([2, 3, 6, 8, 9, 16] : List (Fin 17)) → t.txb.byte j = s.record.byte j

/-- R129: every field written with a value inside its documented domain is read back from the issued buffer. -/
def Obligations.IssuedFieldsRoundTrip : Prop :=
  ∀ (s : State) (c : Byte), s.phase = .idle → s.recValid = true →
    (∀ v : Int, 0 ≤ v → v ≤ 200 →
      ∃ t, exec (.setTargetTemp v) s = .next t ∧ ((view s.cfg t.txb c).targetT2.toNat : Int) = v) ∧
    (∀ v ∈ ([0, 15, 30, 45, 60] : List Int),
      ∃ t, exec (.setHoldTime v) s = .next t ∧ ((view s.cfg t.txb c).holdMin.toNat : Int) = v) ∧
    (∀ v : Int, 0 ≤ v → v ≤ 10 →
      ∃ t, exec (.setChimeVolume v) s = .next t ∧ ((view s.cfg t.txb c).chime.toNat : Int) = v) ∧
    (∀ e : Bool, ∃ t, exec (.setPreBoil e) s = .next t ∧ (view s.cfg t.txb c).preBoil = e) ∧
    (∀ v : Int, 0 ≤ v → v ≤ 3000 → v % 30 = 0 →
      ∃ t, exec (.setAltitude v) s = .next t ∧ ((view s.cfg t.txb c).altitudeM.toNat : Int) = v) ∧
    (s.cfg.altSetRound = .floor → ∀ v : Int, 0 ≤ v → v ≤ 3000 →
      ∃ t, exec (.setAltitude v) s = .next t ∧ ((view s.cfg t.txb c).altitudeM.toNat : Int) = v - v % 30) ∧
    (∀ h m : Byte, h.toNat ≤ 23 → m.toNat ≤ 59 →
      ∃ t, exec (.setClock h m) s = .next t ∧ (view s.cfg t.txb c).clockHour = h ∧ (view s.cfg t.txb c).clockMinute = m) ∧
    (∀ (h m d : Byte) (x : ClockMode), h.toNat ≤ 23 → m.toNat ≤ 59 → s.cfg.clockModeCodes.lookup d = some x →
      ∃ t, exec (.setClockMode h m d) s = .next t ∧ (view s.cfg t.txb c).clockHour = h ∧
        (view s.cfg t.txb c).clockMinute = m ∧ (view s.cfg t.txb c).clockMode = .known x) ∧
    (∀ l ∈ s.cfg.langSet, ∃ t, exec (.setLanguage l) s = .next t ∧ (view s.cfg t.txb c).languageRaw = l ∧
      (view s.cfg t.txb c).languageKnown = true) ∧
    (∀ (k : BitVec 2) (h m : Byte) (v : Int), k = 1 ∨ k = 2 → h.toNat ≤ 23 → m.toNat ≤ 59 → 0 ≤ v → v ≤ 200 →
      ∃ t, exec (.setSchedule k h m v) s = .next t ∧
        (t.phase = .waitSingle → (view s.cfg t.txb c).schedHour = h ∧ (view s.cfg t.txb c).schedMinute = m ∧
          ((view s.cfg t.txb c).schedT2.toNat : Int) = v ∧ (view s.cfg t.txb c).schedMode.code = k))

/-! ### Setters -/

/-- R150: SET_TARGET_TEMP writes byte 4. -/
def Obligations.SetTargetTempWritesByte4 : Prop :=
  ∀ v : Int, WritesOneField (.setTargetTemp v) fun _ r => r.setByte 4 (BitVec.ofInt 8 (clamp v 0 200))

/-- R151: SET_HOLD_TIME writes byte 13, a value inside [0, 60] as it is. -/
def Obligations.SetHoldTimeWritesByte13 : Prop :=
  ∀ v : Int, WritesOneField (.setHoldTime v) fun _ r => r.setByte 13 (BitVec.ofInt 8 (clamp v 0 60))

/-- R152: SET_CHIME_VOLUME writes byte 14. -/
def Obligations.SetChimeVolumeWritesByte14 : Prop :=
  ∀ v : Int, WritesOneField (.setChimeVolume v) fun _ r => r.setByte 14 (BitVec.ofInt 8 (clamp v 0 10))

/-- R153: SET_PRE_BOIL writes bit 3 of byte 1 and keeps its other seven bits. -/
def Obligations.SetPreBoilWritesBit3OfByte1 : Prop :=
  ∀ e : Bool, WritesOneField (.setPreBoil e) fun _ r => r.setByte 1 ((r.byte 1 &&& 0xF7) ||| (if e then 0x08 else 0x00))

/-- R154: SET_ALTITUDE clamps, buckets by `ALT_SET_ROUND` and writes bytes 2 and 3 with the marker. -/
def Obligations.SetAltitudeWritesTheBucket : Prop :=
  ∀ v : Int, WritesOneField (.setAltitude v) fun s r =>
    let m := (clamp v 0 3000).toNat
    let q := match s.cfg.altSetRound with
      | .floor => m - m % 30
      | .nearest => (m + 15) / 30 * 30
    (r.setByte 2 (BitVec.ofNat 8 q)).setByte 3 (0x80 ||| BitVec.ofNat 8 (q / 256))

/-- R155: SET_CLOCK, both forms: the first bad operand in the order hour, minute, mode is InvalidArgument even without a record,
and good ones write bytes 10 and 11, and byte 12 only in the form with a mode. -/
def Obligations.SetClockChecksThenWritesTheClockBytes : Prop :=
  ∀ (h m : Byte),
    (∀ s : State, s.phase = .idle → 23 < h.toNat → exec (.setClock h m) s = .next (s.withError 0x02 0x01) ∧
      ∀ d, exec (.setClockMode h m d) s = .next (s.withError 0x02 0x01)) ∧
    (∀ s : State, s.phase = .idle → h.toNat ≤ 23 → 59 < m.toNat → exec (.setClock h m) s = .next (s.withError 0x02 0x02) ∧
      ∀ d, exec (.setClockMode h m d) s = .next (s.withError 0x02 0x02)) ∧
    (∀ (s : State) (d : Byte), s.phase = .idle → h.toNat ≤ 23 → m.toNat ≤ 59 → s.cfg.clockModeCodes.lookup d = none →
      exec (.setClockMode h m d) s = .next (s.withError 0x02 0x03)) ∧
    (h.toNat ≤ 23 → m.toNat ≤ 59 → WritesOneField (.setClock h m) fun _ r => (r.setByte 10 m).setByte 11 h) ∧
    (∀ (s : State) (d : Byte), h.toNat ≤ 23 → m.toNat ≤ 59 → (s.cfg.clockModeCodes.lookup d).isSome = true →
      (s.phase ≠ .idle → exec (.setClockMode h m d) s = .next s) ∧
      (s.phase = .idle → s.recValid = false → exec (.setClockMode h m d) s = .next (s.withError 0x01 0x00)) ∧
      (s.phase = .idle → s.recValid = true → exec (.setClockMode h m d) s = .next (s.withWrite
        (pack s.record s.ctr (fun r => ((r.setByte 10 m).setByte 11 h).setByte 12 d) (bitOf (s.record.byte 16) 3)) .waitSingle)))

/-- R156: SET_LANGUAGE: a code outside `LANG_SET` is InvalidArgument even without a record; one inside writes byte 15. -/
def Obligations.SetLanguageChecksThenWritesByte15 : Prop :=
  ∀ (s : State) (l : Byte),
    (s.phase ≠ .idle → exec (.setLanguage l) s = .next s) ∧
    (s.phase = .idle → l ∉ s.cfg.langSet → exec (.setLanguage l) s = .next (s.withError 0x02 0x04)) ∧
    (s.phase = .idle → l ∈ s.cfg.langSet → s.recValid = false → exec (.setLanguage l) s = .next (s.withError 0x01 0x00)) ∧
    (s.phase = .idle → l ∈ s.cfg.langSet → s.recValid = true → exec (.setLanguage l) s = .next (s.withWrite
      (pack s.record s.ctr (fun r => r.setByte 15 l) (bitOf (s.record.byte 16) 3)) .waitSingle))

/-- R243: GET_STATE and every setter with no cached record, operands good, is NotConnected and nothing else. -/
def Obligations.NoRecordIsNotConnected : Prop :=
  ∀ (i : Instr) (s : State), s.phase = .idle → s.recValid = false → i.isEvent = false → i ≠ .decode → i ≠ .load →
    (∀ h m, i = .setClock h m → h.toNat ≤ 23 ∧ m.toNat ≤ 59) →
    (∀ h m d, i = .setClockMode h m d → h.toNat ≤ 23 ∧ m.toNat ≤ 59 ∧ (s.cfg.clockModeCodes.lookup d).isSome = true) →
    (∀ l, i = .setLanguage l → l ∈ s.cfg.langSet) →
    (∀ k h m v, i = .setSchedule k h m v → k ≠ 3 ∧ (k = 0 ∨ (h.toNat ≤ 23 ∧ m.toNat ≤ 59))) →
    exec i s = .next (s.withError 0x01 0x00)

/-- The frame of every command but LOAD (R127, R128, R184): the cached record, its presence, the counter, the settle counter,
the parameters and the ports stay; `LAT` changes only when SET_SCHEDULE begins two writes; `RES` only when no write is issued. -/
def Obligations.CommandsLeaveTheCacheAlone : Prop :=
  ∀ (i : Instr) (s t : State), i.isEvent = false → i ≠ .load → exec i s = .next t →
    t.record = s.record ∧ t.recValid = s.recValid ∧ t.ctr = s.ctr ∧ t.settleCnt = s.settleCnt ∧ t.cfg = s.cfg ∧
    t.ports = s.ports ∧ t.env = s.env ∧
    (t.lat = s.lat ∨ (s.phase = .idle ∧ t.phase = .waitStep1 ∧ ∃ k h m v, i = .setSchedule k h m v)) ∧
    (t.phase = s.phase → t.txb = s.txb ∧ t.txValid = s.txValid) ∧
    (t.phase ≠ s.phase → t.res = s.res ∧ t.resValid = s.resValid ∧ t.viewPort = s.viewPort)

/-! ### Schedule -/

/-- R184: SET_SCHEDULE: the checks in order, then one write or the first of two. -/
def Obligations.SetScheduleIssuesOneWriteOrTwo : Prop :=
  ∀ (s : State) (k : BitVec 2) (h m : Byte) (v : Int),
    let dis := pack s.record s.ctr (fun r => r.setByte 0 (r.byte 0 &&& 0xF7)) false
    let t2 := BitVec.ofInt 8 (clamp v 0 200)
    let once := decide (k = 1)
    let en := pack s.record s.ctr
      (fun r => (((r.setByte 0 (r.byte 0 ||| 0x08)).setByte 6 t2).setByte 8 m).setByte 9 h) once
    (s.phase ≠ .idle → exec (.setSchedule k h m v) s = .next s) ∧
    (s.phase = .idle → k = 3 → exec (.setSchedule k h m v) s = .next (s.withError 0x02 0x05)) ∧
    (s.phase = .idle → k = 1 ∨ k = 2 → 23 < h.toNat → exec (.setSchedule k h m v) s = .next (s.withError 0x02 0x01)) ∧
    (s.phase = .idle → k = 1 ∨ k = 2 → h.toNat ≤ 23 → 59 < m.toNat →
      exec (.setSchedule k h m v) s = .next (s.withError 0x02 0x02)) ∧
    (s.phase = .idle → k = 0 ∨ ((k = 1 ∨ k = 2) ∧ h.toNat ≤ 23 ∧ m.toNat ≤ 59) → s.recValid = false →
      exec (.setSchedule k h m v) s = .next (s.withError 0x01 0x00)) ∧
    (s.phase = .idle → s.recValid = true → k = 0 → exec (.setSchedule k h m v) s = .next (s.withWrite dis .waitSingle)) ∧
    (s.phase = .idle → s.recValid = true → k = 1 ∨ k = 2 → h.toNat ≤ 23 → m.toNat ≤ 59 →
      (s.record.schedMode = .off ∨ s.record.schedMode.code = k →
        exec (.setSchedule k h m v) s = .next (s.withWrite en .waitSingle)) ∧
      (s.record.schedMode ≠ .off → s.record.schedMode.code ≠ k →
        exec (.setSchedule k h m v) s =
          .next ({ s with lat := { submode := once, hour := h, minute := m, t2 := t2 } }.withWrite dis .waitStep1)))

/-- R182, R183: the bytes of a disable buffer and of an enable buffer. That bytes 1, 4, 5, 7 and 10 to 15 are the record's is pack's
copying (R121, R24), which the spec marks as its own arrangement (D9, D10; log entry 14); the modes read back are R95's. Bytes 2 and 3
are the subject of PackWritesEachByte and EveryPackBucketsTheAltitude. -/
def Obligations.DisableAndEnableBuffers : Prop :=
  ∀ (r : Record) (c t m h : Byte) (sm : Bool),
    let dis := pack r c updDisable false
    let en := pack r c (updEnable { submode := sm, hour := h, minute := m, t2 := t }) sm
    dis.byte 0 = r.byte 0 &&& 0xF7 ∧ dis.byte 6 = 0xC0 ∧ dis.byte 8 = 0 ∧ dis.byte 9 = 0 ∧ dis.byte 16 = c + 1 ∧
    en.byte 0 = r.byte 0 ||| 0x08 ∧ en.byte 6 = t ∧ en.byte 8 = m ∧ en.byte 9 = h ∧
    en.byte 16 = ((c + 1) &&& 0xF7) ||| (if sm then 0x08 else 0x00) ∧
    dis.schedMode = .off ∧ en.schedMode = (if sm then .once else .daily) ∧
    ∀ j : Fin 17, j ∈ ([1, 4, 5, 7, 10, 11, 12, 13, 14, 15] : List (Fin 17)) → dis.byte j = r.byte j ∧ en.byte j = r.byte j

/-- R185: DISABLE_SCHEDULE does exactly what SET_SCHEDULE does with target Off, whatever that command's other operands. -/
def Obligations.DisableScheduleIsSetScheduleOff : Prop :=
  ∀ (s : State),
    (∀ (h m : Byte) (v : Int), exec .disableSchedule s = exec (.setSchedule 0 h m v) s) ∧
    (s.phase ≠ .idle → exec .disableSchedule s = .next s) ∧
    (s.phase = .idle → s.recValid = false → exec .disableSchedule s = .next (s.withError 0x01 0x00)) ∧
    (s.phase = .idle → s.recValid = true → exec .disableSchedule s =
      .next (s.withWrite (pack s.record s.ctr (fun r => r.setByte 0 (r.byte 0 &&& 0xF7)) false) .waitSingle))

/-- R186, with the agents driven as log entry 2 says and legal parameters (the upper bound on SETTLE_TICKS is log entry 8's): a change between Once and Daily, driven through its acknowledgments and ticks: the disable write, the settle
delay with nothing issued, the enable write built from the committed record, and one result at the end. -/
def Obligations.TwoStepChangeRunsToCompletion : Prop :=
  ∀ (s : State) (k : BitVec 2) (h m : Byte) (v : Int), s.cfg.Legal → s.phase = .idle → s.recValid = true →
    (k = 1 ∧ s.record.schedMode = .daily) ∨ (k = 2 ∧ s.record.schedMode = .once) →
    h.toNat ≤ 23 → m.toNat ≤ 59 → fitsA16 v = true →
    let n := s.cfg.settleTicks
    let start := s.driven ([encode (.setSchedule k h m v), encode .wrAck] ++ List.replicate n (encode .tick) ++ [encode .wrAck])
    let dis := pack s.record s.ctr (fun r => r.setByte 0 (r.byte 0 &&& 0xF7)) false
    let en := pack dis (nextCtr s.cfg.ctrFeedback s.ctr dis)
      (fun r => (((r.setByte 0 (r.byte 0 ||| 0x08)).setByte 6 (BitVec.ofInt 8 (clamp v 0 200))).setByte 8 m).setByte 9 h)
      (decide (k = 1))
    (∃ t, runSteps 1 start = .next t ∧ t.phase = .waitStep1 ∧ t.txPort = some dis ∧ t.resValid = false) ∧
    (∀ j, j < n → ∃ t, runSteps (2 + j) start = .next t ∧ t.phase = .settle ∧ t.record = dis ∧ t.recValid = true ∧
      t.settleCnt.toNat = n - j ∧ t.txPort = none ∧ t.resValid = false) ∧
    (∃ t, runSteps (2 + n) start = .next t ∧ t.phase = .waitStep3 ∧ t.txPort = some en ∧ t.resValid = false) ∧
    (∃ t, runSteps (3 + n) start = .next t ∧ t.phase = .idle ∧ t.record = en ∧ t.recValid = true ∧
      t.resValid = true ∧ t.res.code = 0x00 ∧ t.res.info = 0x00 ∧ t.viewPort = some (view s.cfg en t.ctr) ∧
      t.record.schedMode.code = k ∧ (s.cfg.ctrFeedback = .logical → t.ctr = s.ctr + 2))

/-! ### Events -/

/-- R211, R215: WR_ACK in each phase: commit, and what follows it. -/
def Obligations.WrAckCommits : Prop :=
  ∀ s : State,
    let c := match s.cfg.ctrFeedback with
      | .logical => s.ctr + 1
      | .wire => s.txb.byte 16
    (s.phase = .waitSingle ∨ s.phase = .waitStep3 → exec .wrAck s =
      .next ({ s with record := s.txb, ctr := c, phase := .idle }.withResult (view s.cfg s.txb c))) ∧
    (s.phase = .waitStep1 → exec .wrAck s =
      .next { s with record := s.txb, ctr := c, settleCnt := BitVec.ofNat 16 s.cfg.settleTicks, phase := .settle }) ∧
    (s.phase = .idle ∨ s.phase = .settle → exec .wrAck s = .next s)

/-- R212, R213, R216: WR_FAIL and INVALIDATE in each phase: discard, and the error the phase gives. -/
def Obligations.WrFailAndInvalidateDiscard : Prop :=
  ∀ (s : State) (i : Instr), i = .wrFail ∨ i = .invalidate →
    (s.phase = .waitSingle ∨ s.phase = .waitStep1 →
      exec i s = .next ({ s with recValid := false, phase := .idle }.withError 0x04 0x00)) ∧
    (s.phase = .settle ∨ s.phase = .waitStep3 →
      exec i s = .next ({ s with recValid := false, phase := .idle }.withError 0x05 0x83)) ∧
    (s.phase = .idle → exec i s = .next { s with recValid := false })

/-- R214, one tick: it counts down in SETTLE, issues step (3) at zero, and changes nothing in any other phase. -/
def Obligations.TickCountsDownInSettle : Prop :=
  ∀ s : State,
    (s.phase ≠ .settle → exec .tick s = .next s) ∧
    (s.phase = .settle → s.settleCnt - 1 ≠ 0 → exec .tick s = .next { s with settleCnt := s.settleCnt - 1 }) ∧
    (s.phase = .settle → s.settleCnt - 1 = 0 → exec .tick s = .next ({ s with settleCnt := 0 }.withWrite
      (pack s.record s.ctr (fun r => (((r.setByte 0 (r.byte 0 ||| 0x08)).setByte 6 s.lat.t2).setByte 8 s.lat.minute).setByte 9
        s.lat.hour) s.lat.submode) .waitStep3))

/-- R214: from SETTLE with count `n + 1`, the first `n` ticks issue nothing and the next one issues step (3): never sooner,
never later. -/
def Obligations.SettleTakesExactlyItsTicks : Prop :=
  ∀ (n : Nat) (s : State), s.phase = .settle → s.settleCnt.toNat = n + 1 →
    (∀ j, 0 < j → j ≤ n → ∃ t, execTimes .tick j s = .next t ∧ t.phase = .settle ∧ t.settleCnt.toNat = n + 1 - j ∧
      t.txPort = none ∧ t.record = s.record ∧ t.ctr = s.ctr ∧ t.lat = s.lat) ∧
    (∃ t, execTimes .tick (n + 1) s = .next t ∧ t.phase = .waitStep3 ∧ t.settleCnt = 0 ∧
      t.txPort = some (pack s.record s.ctr (updEnable s.lat) s.lat.submode))

/-- R220: the reserved event codes change no state in any phase; a step that takes one only lowers the strobes. -/
def Obligations.ReservedEventsChangeNothing : Prop :=
  (∀ (s : State) (i : Instr), i = .evReserved0 ∨ i = .evReserved5 ∨ i = .evReserved6 ∨ i = .evReserved7 → exec i s = .next s) ∧
  (∀ (s : State) (c : EvCode), s.ports.reset = false → s.ports.ev = some c → c = 0 ∨ c = 5 ∨ c = 6 ∨ c = 7 →
    step s = .next s.lowerStrobes.advance)

/-! ### The counter law -/

/-- R219: along any run with no reset (log entry 3), accepted LOAD, WR_FAIL or INVALIDATE, `CTR` has advanced by the number of writes
acknowledged, modulo 256, whatever the schedule states; and a buffer in flight carries the next counter value with bit 3 replaced
only if its schedule is enabled. -/
def Obligations.CounterLaw : Prop :=
  ∀ (n : Nat) (s t : State), s.phase = .idle → s.recValid = true → s.cfg.ctrFeedback = .logical →
    UndisturbedRun n s → runSteps n s = .next t →
    t.ctr = s.ctr + BitVec.ofNat 8 (ackedWrites n s) ∧
    (t.writeInFlight = true → t.txb.counter =
      wireCounter (s.ctr + BitVec.ofNat 8 (ackedWrites n s + 1)) t.txb.schedEnabled t.txb.schedSubmode)

/-- Tier 3, R219 as a law of one step: with `CTR_FEEDBACK = LOGICAL` a step that is no reset (log entry 3), no accepted LOAD, no
WR_FAIL and no INVALIDATE adds one to `CTR` if it takes the acknowledgment of a write in flight and leaves it otherwise, and byte 16 of
the buffer in flight stays the next counter value, bit 3 replaced only if its schedule is enabled. -/
def Obligations.EveryUndisturbedStepKeepsTheCounterLaw : Prop :=
  ∀ s t : State, s.cfg.ctrFeedback = .logical → s.CarriesNextCounter → s.undisturbed = true → step s = .next t →
    t.ctr = s.ctr + (if s.ackTaken then 1 else 0) ∧ t.CarriesNextCounter

/-- R215, R219, C3: with `CTR_FEEDBACK = WIRE` an acknowledged write advances `CTR` by one exactly when its schedule is disabled or
its submode is bit 3 of the incremented counter. -/
def Obligations.WireFeedbackAdvancesByOneOnlyIfBit3Agrees : Prop :=
  ∀ s t : State, BlockInv s → s.cfg.ctrFeedback = .wire → s.writeInFlight = true → exec .wrAck s = .next t →
    (t.ctr = s.ctr + 1 ↔ (s.txb.schedEnabled = false ∨ s.txb.schedSubmode = (s.ctr + 1).getLsbD 3))

/-! ### Invariants and whole-machine rules -/

/-- The invariant holds after reset. The registers the spec gives no value there (log entry 1) play no part in it. -/
def Obligations.ResetMeetsBlockInv : Prop := BlockInv State.reset

/-- Tier 3. Every step keeps the invariant, from every state that has it. -/
def Obligations.StepKeepsBlockInv : Prop :=
  ∀ s t : State, BlockInv s → step s = .next t → BlockInv t

/-- R4, R281: no step changes a parameter (State carries them, log entry 4). -/
def Obligations.ParametersNeverChange : Prop :=
  ∀ s t : State, step s = .next t → t.cfg = s.cfg

/-- R25: the values the spec gives for reset. -/
def Obligations.ResetLeavesTheGivenValues : Prop :=
  State.reset.recValid = false ∧ State.reset.phase = .idle ∧ State.reset.phase.code = 0 ∧ State.reset.res.word = 0 ∧
  State.reset.resValid = false ∧ State.reset.txPort = none ∧ State.reset.cmdReady = true

/-- R280, with the reset input of log entry 3: a reset takes the block from any state to the values of R25, keeps the
parameters, and forgets a write in flight: its late WR_ACK is ignored and its late WR_FAIL gives no result. -/
def Obligations.ResetForgetsTheWriteInFlight : Prop :=
  ∀ s : State, s.ports.reset = true → ∃ t, step s = .next t ∧
    t.recValid = false ∧ t.phase = .idle ∧ t.res = { code := 0x00, info := 0x00 } ∧ t.resValid = false ∧ t.txValid = false ∧
    t.cfg = s.cfg ∧ exec .wrAck t = .next t ∧ exec .wrFail t = .next t

/-- R10, R13, R44: `REC` and `CTR` change only together and only by an accepted LOAD or by a commit, each
of which writes them whole. -/
def Obligations.RecordChangesOnlyByLoadOrCommit : Prop :=
  ∀ s t : State, s.ports.reset = false → step s = .next t →
    (t.record = s.record ∧ t.ctr = s.ctr) ∨
    (s.take = .run .load ∧ s.phase = .idle ∧ 17 ≤ s.ports.rxLen.toNat ∧ t.record = s.ports.rxBuf ∧
      t.ctr = s.ports.rxBuf.byte 16) ∨
    (s.take = .run .wrAck ∧ s.writeInFlight = true ∧ t.record = s.txb ∧ t.ctr = nextCtr s.cfg.ctrFeedback s.ctr s.txb)

/-- R12, R216: `rec_valid` is set only by a successful LOAD and cleared only by WR_FAIL, INVALIDATE or a failed LOAD. -/
def Obligations.PresenceChangesOnlyByLoadOrDiscard : Prop :=
  ∀ s t : State, s.ports.reset = false → step s = .next t → t.recValid ≠ s.recValid →
    (t.recValid = true ∧ s.take = .run .load ∧ s.phase = .idle ∧ 17 ≤ s.ports.rxLen.toNat) ∨
    (t.recValid = false ∧ (s.take = .run .wrFail ∨ s.take = .run .invalidate ∨
      (s.take = .run .load ∧ s.phase = .idle ∧ s.ports.rxLen.toNat < 17)))

/-- R20, R24, R157: bytes 5 and 7, the unassigned flag bits and the units flag change by LOAD alone. The invariant rules out states
whose buffer in flight no command has built. -/
def Obligations.UncommandedContentChangesOnlyByLoad : Prop :=
  ∀ s t : State, BlockInv s → s.ports.reset = false → s.take ≠ .run .load → step s = .next t →
    t.record.byte 5 = s.record.byte 5 ∧ t.record.byte 7 = s.record.byte 7 ∧
    t.record.byte 0 &&& 0xF7 = s.record.byte 0 &&& 0xF7 ∧ t.record.byte 1 &&& 0xF7 = s.record.byte 1 &&& 0xF7 ∧
    t.record.unitsCelsius = s.record.unitsCelsius

/-- R19, R70, R247, R250: a result comes only with the block in IDLE, a view exactly with OK, and `RES` holds its value until the next
result. -/
def Obligations.ResultsComeInIdleAndHold : Prop :=
  ∀ s t : State, s.ports.reset = false → step s = .next t →
    (t.resValid = false → t.res = s.res ∧ t.viewPort = none) ∧
    (t.resValid = true → t.phase = .idle ∧ (t.viewPort.isSome = true ↔ t.res.code = 0x00))

/-- R44, R47: a write is issued only when none is in flight, it is then in flight, and its buffer stays until it is answered. -/
def Obligations.WritesNeverOverlap : Prop :=
  ∀ s t : State, step s = .next t →
    (t.txValid = true → s.writeInFlight = false ∧ t.writeInFlight = true) ∧
    (s.writeInFlight = false → t.writeInFlight = true → t.txValid = true) ∧
    (s.writeInFlight = true → t.writeInFlight = true → t.txb = s.txb ∧ t.phase = s.phase)

/-- R210, R14: the changes of phase, and what makes each. -/
def Obligations.PhaseChangesAreTheTables : Prop :=
  ∀ s t : State, s.ports.reset = false → step s = .next t → t.phase ≠ s.phase →
    (s.phase = .idle ∧ (t.phase = .waitSingle ∨ t.phase = .waitStep1) ∧ ∃ i, s.take = .run i ∧ i.isEvent = false) ∨
    (s.phase ≠ .idle ∧ t.phase = .idle ∧ (s.take = .run .wrFail ∨ s.take = .run .invalidate)) ∨
    ((s.phase = .waitSingle ∨ s.phase = .waitStep3) ∧ t.phase = .idle ∧ s.take = .run .wrAck) ∨
    (s.phase = .waitStep1 ∧ t.phase = .settle ∧ s.take = .run .wrAck) ∨
    (s.phase = .settle ∧ t.phase = .waitStep3 ∧ s.take = .run .tick ∧ s.settleCnt = 1)

/-- R281: without a cached record only DECODE and LOAD complete with OK. -/
def Obligations.OnlyDecodeAndLoadSucceedWithoutARecord : Prop :=
  ∀ s t : State, s.ports.reset = false → s.phase = .idle → s.recValid = false → step s = .next t → t.resValid = true →
    t.res.code = 0x00 → s.take = .run .decode ∨ s.take = .run .load

/-- Tier 3, R12, R15, R17, R18, R25: a register without meaning is never read: two states that differ only in such registers (the values
log entry 1 gives them at reset among them) step to two such states, outputs included. The invariant rules out busy states
without a record. -/
def Obligations.RegistersWithoutMeaningAreNeverRead : Prop :=
  ∀ s s' t t' : State, BlockInv s → BlockInv s' → SameMeaning s s' → step s = .next t → step s' = .next t' → SameMeaning t t'
end

