-- ==== Sys2Proof/Laws/State.lean ====
section
/-! SUPPORT. What each named operation leaves in each field of the state: one lemma per field per operation, so that no
later proof unfolds a record update. -/

namespace Sys2Proof.Machine

/-! ### raise -/

@[simp] theorem State.raise_record (s : State) (e : ResultCode) (info : Byte) : (s.raise e info).record = s.record := rfl
@[simp] theorem State.raise_recValid (s : State) (e : ResultCode) (info : Byte) : (s.raise e info).recValid = s.recValid := rfl
@[simp] theorem State.raise_ctr (s : State) (e : ResultCode) (info : Byte) : (s.raise e info).ctr = s.ctr := rfl
@[simp] theorem State.raise_phase (s : State) (e : ResultCode) (info : Byte) : (s.raise e info).phase = s.phase := rfl
@[simp] theorem State.raise_txb (s : State) (e : ResultCode) (info : Byte) : (s.raise e info).txb = s.txb := rfl
@[simp] theorem State.raise_lat (s : State) (e : ResultCode) (info : Byte) : (s.raise e info).lat = s.lat := rfl
@[simp] theorem State.raise_settleCnt (s : State) (e : ResultCode) (info : Byte) : (s.raise e info).settleCnt = s.settleCnt := rfl
@[simp] theorem State.raise_res (s : State) (e : ResultCode) (info : Byte) : (s.raise e info).res = { code := e.code, info := info } := rfl
@[simp] theorem State.raise_resValid (s : State) (e : ResultCode) (info : Byte) : (s.raise e info).resValid = true := rfl
@[simp] theorem State.raise_txValid (s : State) (e : ResultCode) (info : Byte) : (s.raise e info).txValid = s.txValid := rfl
@[simp] theorem State.raise_viewPort (s : State) (e : ResultCode) (info : Byte) : (s.raise e info).viewPort = none := rfl
@[simp] theorem State.raise_cfg (s : State) (e : ResultCode) (info : Byte) : (s.raise e info).cfg = s.cfg := rfl
@[simp] theorem State.raise_ports (s : State) (e : ResultCode) (info : Byte) : (s.raise e info).ports = s.ports := rfl
@[simp] theorem State.raise_env (s : State) (e : ResultCode) (info : Byte) : (s.raise e info).env = s.env := rfl

/-! ### completeOk -/

@[simp] theorem State.completeOk_record (s : State) (v : View) : (s.completeOk v).record = s.record := rfl
@[simp] theorem State.completeOk_recValid (s : State) (v : View) : (s.completeOk v).recValid = s.recValid := rfl
@[simp] theorem State.completeOk_ctr (s : State) (v : View) : (s.completeOk v).ctr = s.ctr := rfl
@[simp] theorem State.completeOk_phase (s : State) (v : View) : (s.completeOk v).phase = s.phase := rfl
@[simp] theorem State.completeOk_txb (s : State) (v : View) : (s.completeOk v).txb = s.txb := rfl
@[simp] theorem State.completeOk_lat (s : State) (v : View) : (s.completeOk v).lat = s.lat := rfl
@[simp] theorem State.completeOk_settleCnt (s : State) (v : View) : (s.completeOk v).settleCnt = s.settleCnt := rfl
@[simp] theorem State.completeOk_res (s : State) (v : View) : (s.completeOk v).res = { code := ResultCode.ok.code, info := 0x00 } := rfl
@[simp] theorem State.completeOk_resValid (s : State) (v : View) : (s.completeOk v).resValid = true := rfl
@[simp] theorem State.completeOk_txValid (s : State) (v : View) : (s.completeOk v).txValid = s.txValid := rfl
@[simp] theorem State.completeOk_viewPort (s : State) (v : View) : (s.completeOk v).viewPort = some v := rfl
@[simp] theorem State.completeOk_cfg (s : State) (v : View) : (s.completeOk v).cfg = s.cfg := rfl
@[simp] theorem State.completeOk_ports (s : State) (v : View) : (s.completeOk v).ports = s.ports := rfl
@[simp] theorem State.completeOk_env (s : State) (v : View) : (s.completeOk v).env = s.env := rfl

/-! ### completeWithRecord -/

@[simp] theorem State.completeWithRecord_record (s : State) : s.completeWithRecord.record = s.record := rfl
@[simp] theorem State.completeWithRecord_recValid (s : State) : s.completeWithRecord.recValid = s.recValid := rfl
@[simp] theorem State.completeWithRecord_ctr (s : State) : s.completeWithRecord.ctr = s.ctr := rfl
@[simp] theorem State.completeWithRecord_phase (s : State) : s.completeWithRecord.phase = s.phase := rfl
@[simp] theorem State.completeWithRecord_txb (s : State) : s.completeWithRecord.txb = s.txb := rfl
@[simp] theorem State.completeWithRecord_lat (s : State) : s.completeWithRecord.lat = s.lat := rfl
@[simp] theorem State.completeWithRecord_settleCnt (s : State) : s.completeWithRecord.settleCnt = s.settleCnt := rfl
@[simp] theorem State.completeWithRecord_res (s : State) : s.completeWithRecord.res = { code := ResultCode.ok.code, info := 0x00 } := rfl
@[simp] theorem State.completeWithRecord_resValid (s : State) : s.completeWithRecord.resValid = true := rfl
@[simp] theorem State.completeWithRecord_txValid (s : State) : s.completeWithRecord.txValid = s.txValid := rfl
@[simp] theorem State.completeWithRecord_viewPort (s : State) : s.completeWithRecord.viewPort = some (view s.cfg s.record s.ctr) := rfl
@[simp] theorem State.completeWithRecord_cfg (s : State) : s.completeWithRecord.cfg = s.cfg := rfl
@[simp] theorem State.completeWithRecord_ports (s : State) : s.completeWithRecord.ports = s.ports := rfl
@[simp] theorem State.completeWithRecord_env (s : State) : s.completeWithRecord.env = s.env := rfl

/-! ### issueWrite -/

@[simp] theorem State.issueWrite_record (s : State) (t : Record) (p : Phase) : (s.issueWrite t p).record = s.record := rfl
@[simp] theorem State.issueWrite_recValid (s : State) (t : Record) (p : Phase) : (s.issueWrite t p).recValid = s.recValid := rfl
@[simp] theorem State.issueWrite_ctr (s : State) (t : Record) (p : Phase) : (s.issueWrite t p).ctr = s.ctr := rfl
@[simp] theorem State.issueWrite_phase (s : State) (t : Record) (p : Phase) : (s.issueWrite t p).phase = p := rfl
@[simp] theorem State.issueWrite_txb (s : State) (t : Record) (p : Phase) : (s.issueWrite t p).txb = t := rfl
@[simp] theorem State.issueWrite_lat (s : State) (t : Record) (p : Phase) : (s.issueWrite t p).lat = s.lat := rfl
@[simp] theorem State.issueWrite_settleCnt (s : State) (t : Record) (p : Phase) : (s.issueWrite t p).settleCnt = s.settleCnt := rfl
@[simp] theorem State.issueWrite_res (s : State) (t : Record) (p : Phase) : (s.issueWrite t p).res = s.res := rfl
@[simp] theorem State.issueWrite_resValid (s : State) (t : Record) (p : Phase) : (s.issueWrite t p).resValid = s.resValid := rfl
@[simp] theorem State.issueWrite_txValid (s : State) (t : Record) (p : Phase) : (s.issueWrite t p).txValid = true := rfl
@[simp] theorem State.issueWrite_viewPort (s : State) (t : Record) (p : Phase) : (s.issueWrite t p).viewPort = s.viewPort := rfl
@[simp] theorem State.issueWrite_cfg (s : State) (t : Record) (p : Phase) : (s.issueWrite t p).cfg = s.cfg := rfl
@[simp] theorem State.issueWrite_ports (s : State) (t : Record) (p : Phase) : (s.issueWrite t p).ports = s.ports := rfl
@[simp] theorem State.issueWrite_env (s : State) (t : Record) (p : Phase) : (s.issueWrite t p).env = s.env := rfl

/-! ### commit -/

@[simp] theorem State.commit_record (s : State) : s.commit.record = s.txb := rfl
@[simp] theorem State.commit_recValid (s : State) : s.commit.recValid = s.recValid := rfl
@[simp] theorem State.commit_ctr (s : State) : s.commit.ctr = nextCtr s.cfg.ctrFeedback s.ctr s.txb := rfl
@[simp] theorem State.commit_phase (s : State) : s.commit.phase = s.phase := rfl
@[simp] theorem State.commit_txb (s : State) : s.commit.txb = s.txb := rfl
@[simp] theorem State.commit_lat (s : State) : s.commit.lat = s.lat := rfl
@[simp] theorem State.commit_settleCnt (s : State) : s.commit.settleCnt = s.settleCnt := rfl
@[simp] theorem State.commit_res (s : State) : s.commit.res = s.res := rfl
@[simp] theorem State.commit_resValid (s : State) : s.commit.resValid = s.resValid := rfl
@[simp] theorem State.commit_txValid (s : State) : s.commit.txValid = s.txValid := rfl
@[simp] theorem State.commit_viewPort (s : State) : s.commit.viewPort = s.viewPort := rfl
@[simp] theorem State.commit_cfg (s : State) : s.commit.cfg = s.cfg := rfl
@[simp] theorem State.commit_ports (s : State) : s.commit.ports = s.ports := rfl
@[simp] theorem State.commit_env (s : State) : s.commit.env = s.env := rfl

/-! ### discard -/

@[simp] theorem State.discard_record (s : State) : s.discard.record = s.record := rfl
@[simp] theorem State.discard_recValid (s : State) : s.discard.recValid = false := rfl
@[simp] theorem State.discard_ctr (s : State) : s.discard.ctr = s.ctr := rfl
@[simp] theorem State.discard_phase (s : State) : s.discard.phase = s.phase := rfl
@[simp] theorem State.discard_txb (s : State) : s.discard.txb = s.txb := rfl
@[simp] theorem State.discard_lat (s : State) : s.discard.lat = s.lat := rfl
@[simp] theorem State.discard_settleCnt (s : State) : s.discard.settleCnt = s.settleCnt := rfl
@[simp] theorem State.discard_res (s : State) : s.discard.res = s.res := rfl
@[simp] theorem State.discard_resValid (s : State) : s.discard.resValid = s.resValid := rfl
@[simp] theorem State.discard_txValid (s : State) : s.discard.txValid = s.txValid := rfl
@[simp] theorem State.discard_viewPort (s : State) : s.discard.viewPort = s.viewPort := rfl
@[simp] theorem State.discard_cfg (s : State) : s.discard.cfg = s.cfg := rfl
@[simp] theorem State.discard_ports (s : State) : s.discard.ports = s.ports := rfl
@[simp] theorem State.discard_env (s : State) : s.discard.env = s.env := rfl

/-! ### toPhase -/

@[simp] theorem State.toPhase_record (s : State) (p : Phase) : (s.toPhase p).record = s.record := rfl
@[simp] theorem State.toPhase_recValid (s : State) (p : Phase) : (s.toPhase p).recValid = s.recValid := rfl
@[simp] theorem State.toPhase_ctr (s : State) (p : Phase) : (s.toPhase p).ctr = s.ctr := rfl
@[simp] theorem State.toPhase_phase (s : State) (p : Phase) : (s.toPhase p).phase = p := rfl
@[simp] theorem State.toPhase_txb (s : State) (p : Phase) : (s.toPhase p).txb = s.txb := rfl
@[simp] theorem State.toPhase_lat (s : State) (p : Phase) : (s.toPhase p).lat = s.lat := rfl
@[simp] theorem State.toPhase_settleCnt (s : State) (p : Phase) : (s.toPhase p).settleCnt = s.settleCnt := rfl
@[simp] theorem State.toPhase_res (s : State) (p : Phase) : (s.toPhase p).res = s.res := rfl
@[simp] theorem State.toPhase_resValid (s : State) (p : Phase) : (s.toPhase p).resValid = s.resValid := rfl
@[simp] theorem State.toPhase_txValid (s : State) (p : Phase) : (s.toPhase p).txValid = s.txValid := rfl
@[simp] theorem State.toPhase_viewPort (s : State) (p : Phase) : (s.toPhase p).viewPort = s.viewPort := rfl
@[simp] theorem State.toPhase_cfg (s : State) (p : Phase) : (s.toPhase p).cfg = s.cfg := rfl
@[simp] theorem State.toPhase_ports (s : State) (p : Phase) : (s.toPhase p).ports = s.ports := rfl
@[simp] theorem State.toPhase_env (s : State) (p : Phase) : (s.toPhase p).env = s.env := rfl

/-! ### startSettle -/

@[simp] theorem State.startSettle_record (s : State) : s.startSettle.record = s.record := rfl
@[simp] theorem State.startSettle_recValid (s : State) : s.startSettle.recValid = s.recValid := rfl
@[simp] theorem State.startSettle_ctr (s : State) : s.startSettle.ctr = s.ctr := rfl
@[simp] theorem State.startSettle_phase (s : State) : s.startSettle.phase = .settle := rfl
@[simp] theorem State.startSettle_txb (s : State) : s.startSettle.txb = s.txb := rfl
@[simp] theorem State.startSettle_lat (s : State) : s.startSettle.lat = s.lat := rfl
@[simp] theorem State.startSettle_settleCnt (s : State) : s.startSettle.settleCnt = BitVec.ofNat 16 s.cfg.settleTicks := rfl
@[simp] theorem State.startSettle_res (s : State) : s.startSettle.res = s.res := rfl
@[simp] theorem State.startSettle_resValid (s : State) : s.startSettle.resValid = s.resValid := rfl
@[simp] theorem State.startSettle_txValid (s : State) : s.startSettle.txValid = s.txValid := rfl
@[simp] theorem State.startSettle_viewPort (s : State) : s.startSettle.viewPort = s.viewPort := rfl
@[simp] theorem State.startSettle_cfg (s : State) : s.startSettle.cfg = s.cfg := rfl
@[simp] theorem State.startSettle_ports (s : State) : s.startSettle.ports = s.ports := rfl
@[simp] theorem State.startSettle_env (s : State) : s.startSettle.env = s.env := rfl

/-! ### fill -/

@[simp] theorem State.fill_record (s : State) (b : Record) : (s.fill b).record = b := rfl
@[simp] theorem State.fill_recValid (s : State) (b : Record) : (s.fill b).recValid = true := rfl
@[simp] theorem State.fill_ctr (s : State) (b : Record) : (s.fill b).ctr = b.counter := rfl
@[simp] theorem State.fill_phase (s : State) (b : Record) : (s.fill b).phase = s.phase := rfl
@[simp] theorem State.fill_txb (s : State) (b : Record) : (s.fill b).txb = s.txb := rfl
@[simp] theorem State.fill_lat (s : State) (b : Record) : (s.fill b).lat = s.lat := rfl
@[simp] theorem State.fill_settleCnt (s : State) (b : Record) : (s.fill b).settleCnt = s.settleCnt := rfl
@[simp] theorem State.fill_res (s : State) (b : Record) : (s.fill b).res = s.res := rfl
@[simp] theorem State.fill_resValid (s : State) (b : Record) : (s.fill b).resValid = s.resValid := rfl
@[simp] theorem State.fill_txValid (s : State) (b : Record) : (s.fill b).txValid = s.txValid := rfl
@[simp] theorem State.fill_viewPort (s : State) (b : Record) : (s.fill b).viewPort = s.viewPort := rfl
@[simp] theorem State.fill_cfg (s : State) (b : Record) : (s.fill b).cfg = s.cfg := rfl
@[simp] theorem State.fill_ports (s : State) (b : Record) : (s.fill b).ports = s.ports := rfl
@[simp] theorem State.fill_env (s : State) (b : Record) : (s.fill b).env = s.env := rfl

/-! ### writeOne -/

@[simp] theorem State.writeOne_record (s : State) (upd : Record → Record) (sm : Bool) : (s.writeOne upd sm).record = s.record := rfl
@[simp] theorem State.writeOne_recValid (s : State) (upd : Record → Record) (sm : Bool) : (s.writeOne upd sm).recValid = s.recValid := rfl
@[simp] theorem State.writeOne_ctr (s : State) (upd : Record → Record) (sm : Bool) : (s.writeOne upd sm).ctr = s.ctr := rfl
@[simp] theorem State.writeOne_phase (s : State) (upd : Record → Record) (sm : Bool) : (s.writeOne upd sm).phase = .waitSingle := rfl
@[simp] theorem State.writeOne_txb (s : State) (upd : Record → Record) (sm : Bool) : (s.writeOne upd sm).txb = pack s.record s.ctr upd sm := rfl
@[simp] theorem State.writeOne_lat (s : State) (upd : Record → Record) (sm : Bool) : (s.writeOne upd sm).lat = s.lat := rfl
@[simp] theorem State.writeOne_settleCnt (s : State) (upd : Record → Record) (sm : Bool) : (s.writeOne upd sm).settleCnt = s.settleCnt := rfl
@[simp] theorem State.writeOne_res (s : State) (upd : Record → Record) (sm : Bool) : (s.writeOne upd sm).res = s.res := rfl
@[simp] theorem State.writeOne_resValid (s : State) (upd : Record → Record) (sm : Bool) : (s.writeOne upd sm).resValid = s.resValid := rfl
@[simp] theorem State.writeOne_txValid (s : State) (upd : Record → Record) (sm : Bool) : (s.writeOne upd sm).txValid = true := rfl
@[simp] theorem State.writeOne_viewPort (s : State) (upd : Record → Record) (sm : Bool) : (s.writeOne upd sm).viewPort = s.viewPort := rfl
@[simp] theorem State.writeOne_cfg (s : State) (upd : Record → Record) (sm : Bool) : (s.writeOne upd sm).cfg = s.cfg := rfl
@[simp] theorem State.writeOne_ports (s : State) (upd : Record → Record) (sm : Bool) : (s.writeOne upd sm).ports = s.ports := rfl
@[simp] theorem State.writeOne_env (s : State) (upd : Record → Record) (sm : Bool) : (s.writeOne upd sm).env = s.env := rfl

/-! ### beginTwoStep -/

@[simp] theorem State.beginTwoStep_record (s : State) (l : Latched) : (s.beginTwoStep l).record = s.record := rfl
@[simp] theorem State.beginTwoStep_recValid (s : State) (l : Latched) : (s.beginTwoStep l).recValid = s.recValid := rfl
@[simp] theorem State.beginTwoStep_ctr (s : State) (l : Latched) : (s.beginTwoStep l).ctr = s.ctr := rfl
@[simp] theorem State.beginTwoStep_phase (s : State) (l : Latched) : (s.beginTwoStep l).phase = .waitStep1 := rfl
@[simp] theorem State.beginTwoStep_txb (s : State) (l : Latched) : (s.beginTwoStep l).txb = pack s.record s.ctr updDisable false := rfl
@[simp] theorem State.beginTwoStep_lat (s : State) (l : Latched) : (s.beginTwoStep l).lat = l := rfl
@[simp] theorem State.beginTwoStep_settleCnt (s : State) (l : Latched) : (s.beginTwoStep l).settleCnt = s.settleCnt := rfl
@[simp] theorem State.beginTwoStep_res (s : State) (l : Latched) : (s.beginTwoStep l).res = s.res := rfl
@[simp] theorem State.beginTwoStep_resValid (s : State) (l : Latched) : (s.beginTwoStep l).resValid = s.resValid := rfl
@[simp] theorem State.beginTwoStep_txValid (s : State) (l : Latched) : (s.beginTwoStep l).txValid = true := rfl
@[simp] theorem State.beginTwoStep_viewPort (s : State) (l : Latched) : (s.beginTwoStep l).viewPort = s.viewPort := rfl
@[simp] theorem State.beginTwoStep_cfg (s : State) (l : Latched) : (s.beginTwoStep l).cfg = s.cfg := rfl
@[simp] theorem State.beginTwoStep_ports (s : State) (l : Latched) : (s.beginTwoStep l).ports = s.ports := rfl
@[simp] theorem State.beginTwoStep_env (s : State) (l : Latched) : (s.beginTwoStep l).env = s.env := rfl

/-! ### issueStep3 -/

@[simp] theorem State.issueStep3_record (s : State) : s.issueStep3.record = s.record := rfl
@[simp] theorem State.issueStep3_recValid (s : State) : s.issueStep3.recValid = s.recValid := rfl
@[simp] theorem State.issueStep3_ctr (s : State) : s.issueStep3.ctr = s.ctr := rfl
@[simp] theorem State.issueStep3_phase (s : State) : s.issueStep3.phase = .waitStep3 := rfl
@[simp] theorem State.issueStep3_txb (s : State) : s.issueStep3.txb = pack s.record s.ctr (updEnable s.lat) s.lat.submode := rfl
@[simp] theorem State.issueStep3_lat (s : State) : s.issueStep3.lat = s.lat := rfl
@[simp] theorem State.issueStep3_settleCnt (s : State) : s.issueStep3.settleCnt = s.settleCnt := rfl
@[simp] theorem State.issueStep3_res (s : State) : s.issueStep3.res = s.res := rfl
@[simp] theorem State.issueStep3_resValid (s : State) : s.issueStep3.resValid = s.resValid := rfl
@[simp] theorem State.issueStep3_txValid (s : State) : s.issueStep3.txValid = true := rfl
@[simp] theorem State.issueStep3_viewPort (s : State) : s.issueStep3.viewPort = s.viewPort := rfl
@[simp] theorem State.issueStep3_cfg (s : State) : s.issueStep3.cfg = s.cfg := rfl
@[simp] theorem State.issueStep3_ports (s : State) : s.issueStep3.ports = s.ports := rfl
@[simp] theorem State.issueStep3_env (s : State) : s.issueStep3.env = s.env := rfl

/-! ### lowerStrobes -/

@[simp] theorem State.lowerStrobes_record (s : State) : s.lowerStrobes.record = s.record := rfl
@[simp] theorem State.lowerStrobes_recValid (s : State) : s.lowerStrobes.recValid = s.recValid := rfl
@[simp] theorem State.lowerStrobes_ctr (s : State) : s.lowerStrobes.ctr = s.ctr := rfl
@[simp] theorem State.lowerStrobes_phase (s : State) : s.lowerStrobes.phase = s.phase := rfl
@[simp] theorem State.lowerStrobes_txb (s : State) : s.lowerStrobes.txb = s.txb := rfl
@[simp] theorem State.lowerStrobes_lat (s : State) : s.lowerStrobes.lat = s.lat := rfl
@[simp] theorem State.lowerStrobes_settleCnt (s : State) : s.lowerStrobes.settleCnt = s.settleCnt := rfl
@[simp] theorem State.lowerStrobes_res (s : State) : s.lowerStrobes.res = s.res := rfl
@[simp] theorem State.lowerStrobes_resValid (s : State) : s.lowerStrobes.resValid = false := rfl
@[simp] theorem State.lowerStrobes_txValid (s : State) : s.lowerStrobes.txValid = false := rfl
@[simp] theorem State.lowerStrobes_viewPort (s : State) : s.lowerStrobes.viewPort = none := rfl
@[simp] theorem State.lowerStrobes_cfg (s : State) : s.lowerStrobes.cfg = s.cfg := rfl
@[simp] theorem State.lowerStrobes_ports (s : State) : s.lowerStrobes.ports = s.ports := rfl
@[simp] theorem State.lowerStrobes_env (s : State) : s.lowerStrobes.env = s.env := rfl

/-! ### resetBlock -/

@[simp] theorem State.resetBlock_record (s : State) : s.resetBlock.record = State.reset.record := rfl
@[simp] theorem State.resetBlock_recValid (s : State) : s.resetBlock.recValid = State.reset.recValid := rfl
@[simp] theorem State.resetBlock_ctr (s : State) : s.resetBlock.ctr = State.reset.ctr := rfl
@[simp] theorem State.resetBlock_phase (s : State) : s.resetBlock.phase = State.reset.phase := rfl
@[simp] theorem State.resetBlock_txb (s : State) : s.resetBlock.txb = State.reset.txb := rfl
@[simp] theorem State.resetBlock_lat (s : State) : s.resetBlock.lat = State.reset.lat := rfl
@[simp] theorem State.resetBlock_settleCnt (s : State) : s.resetBlock.settleCnt = State.reset.settleCnt := rfl
@[simp] theorem State.resetBlock_res (s : State) : s.resetBlock.res = State.reset.res := rfl
@[simp] theorem State.resetBlock_resValid (s : State) : s.resetBlock.resValid = State.reset.resValid := rfl
@[simp] theorem State.resetBlock_txValid (s : State) : s.resetBlock.txValid = State.reset.txValid := rfl
@[simp] theorem State.resetBlock_viewPort (s : State) : s.resetBlock.viewPort = State.reset.viewPort := rfl
@[simp] theorem State.resetBlock_cfg (s : State) : s.resetBlock.cfg = s.cfg := rfl
@[simp] theorem State.resetBlock_ports (s : State) : s.resetBlock.ports = s.ports := rfl
@[simp] theorem State.resetBlock_env (s : State) : s.resetBlock.env = s.env := rfl

/-! ### advance -/

@[simp] theorem State.advance_record (s : State) : s.advance.record = s.record := by
  unfold State.advance; split <;> rfl
@[simp] theorem State.advance_recValid (s : State) : s.advance.recValid = s.recValid := by
  unfold State.advance; split <;> rfl
@[simp] theorem State.advance_ctr (s : State) : s.advance.ctr = s.ctr := by
  unfold State.advance; split <;> rfl
@[simp] theorem State.advance_phase (s : State) : s.advance.phase = s.phase := by
  unfold State.advance; split <;> rfl
@[simp] theorem State.advance_txb (s : State) : s.advance.txb = s.txb := by
  unfold State.advance; split <;> rfl
@[simp] theorem State.advance_lat (s : State) : s.advance.lat = s.lat := by
  unfold State.advance; split <;> rfl
@[simp] theorem State.advance_settleCnt (s : State) : s.advance.settleCnt = s.settleCnt := by
  unfold State.advance; split <;> rfl
@[simp] theorem State.advance_res (s : State) : s.advance.res = s.res := by
  unfold State.advance; split <;> rfl
@[simp] theorem State.advance_resValid (s : State) : s.advance.resValid = s.resValid := by
  unfold State.advance; split <;> rfl
@[simp] theorem State.advance_txValid (s : State) : s.advance.txValid = s.txValid := by
  unfold State.advance; split <;> rfl
@[simp] theorem State.advance_viewPort (s : State) : s.advance.viewPort = s.viewPort := by
  unfold State.advance; split <;> rfl
@[simp] theorem State.advance_cfg (s : State) : s.advance.cfg = s.cfg := by
  unfold State.advance; split <;> rfl

theorem State.advance_ports_nil (s : State) (h : s.env = []) : s.advance.ports = s.ports.silent := by
  unfold State.advance; rw [h]

theorem State.advance_ports_cons (s : State) (p : Ports) (ps : List Ports) (h : s.env = p :: ps) :
    s.advance.ports = p ∧ s.advance.env = ps := by
  unfold State.advance; rw [h]; exact ⟨rfl, rfl⟩

/-- Advancing depends on the ports and on what the agents present next, nothing else. -/
theorem State.advance_congr (s s' : State) (hp : s.ports = s'.ports) (he : s.env = s'.env) :
    s.advance.ports = s'.advance.ports ∧ s.advance.env = s'.advance.env := by
  unfold State.advance; rw [he, hp]; split <;> exact ⟨rfl, rfl⟩

/-! ### What a step reads of the ports -/

@[simp] theorem State.take_lowerStrobes (s : State) : s.lowerStrobes.take = s.take := rfl
@[simp] theorem State.cmdReady_lowerStrobes (s : State) : s.lowerStrobes.cmdReady = s.cmdReady := rfl
@[simp] theorem State.writeInFlight_lowerStrobes (s : State) : s.lowerStrobes.writeInFlight = s.writeInFlight := rfl

theorem State.writeInFlight_congr (s t : State) (h : s.phase = t.phase) : s.writeInFlight = t.writeInFlight := by
  unfold State.writeInFlight; rw [h]

@[simp] theorem State.writeInFlight_advance (s : State) : s.advance.writeInFlight = s.writeInFlight :=
  State.writeInFlight_congr _ _ (State.advance_phase s)

theorem State.cmdReady_iff (s : State) : s.cmdReady = true ↔ s.phase = .idle := by simp [State.cmdReady]

end Sys2Proof.Machine
end

