-- ==== Sys2Proof/Laws/Buffers.lean ====
section
/-! SUPPORT. Buckets, clamps, the altitude field, the flag bits and pack: what each function gives, said once. -/

namespace Sys2Proof.Machine

/-! ### Buckets and clamps -/

theorem floor30_spec (v : Nat) : floor30 v = v / 30 * 30 := by unfold floor30 Config.altStep; omega

theorem floor30_le (v : Nat) : floor30 v ≤ v := by unfold floor30; omega

theorem floor30_mod (v : Nat) : floor30 v % Config.altStep = 0 := by unfold floor30 Config.altStep; omega

theorem floor30_idem (v : Nat) : floor30 (floor30 v) = floor30 v := by unfold floor30 Config.altStep; omega

theorem floor30_of_mod (v : Nat) (h : v % Config.altStep = 0) : floor30 v = v := by unfold floor30; omega

/-- A number clamped into a byte's range is read back from the byte. -/
theorem toNat_ofInt_clamp (v hi : Int) (h0 : 0 ≤ hi) (h1 : hi ≤ 255) :
    ((BitVec.ofInt 8 (clamp v 0 hi)).toNat : Int) = clamp v 0 hi := by
  have hc : 0 ≤ clamp v 0 hi ∧ clamp v 0 hi ≤ hi := by unfold clamp; split_ifs <;> omega
  rw [BitVec.toNat_ofInt]
  omega

theorem clampT2_le (v : Int) : (clampT2 v).toNat ≤ 200 := by
  have h := toNat_ofInt_clamp v 200 (by norm_num) (by norm_num)
  have hc : clamp v 0 200 ≤ 200 := by unfold clamp; split_ifs <;> omega
  have : ((clampT2 v).toNat : Int) = clamp v 0 200 := h
  omega

theorem clampAltitude_le (v : Int) : clampAltitude v ≤ 3000 := by
  unfold clampAltitude clamp Config.altMin Config.altMax; split_ifs <;> omega

/-- The bucket of a clamped altitude is inside the domain and a multiple of 30 (R126). -/
theorem bucketAltitude_le (mode : AltRound) (m : Nat) (h : m ≤ 3000) :
    bucketAltitude mode m ≤ 3000 ∧ bucketAltitude mode m % Config.altStep = 0 := by
  cases mode <;> simp only [bucketAltitude, floor30, near30, Config.altStep] <;> omega

theorem altitudeOperand_toNat (mode : AltRound) (v : Int) :
    (altitudeOperand mode v).toNat = bucketAltitude mode (clampAltitude v) := by
  have := (bucketAltitude_le mode _ (clampAltitude_le v)).1
  unfold altitudeOperand
  rw [BitVec.toNat_ofNat]
  omega

/-! ### The altitude field -/

theorem Record.altitudeM_toNat (t : Record) : t.altitudeM.toNat = floor30 t.raw15.toNat := by
  have h1 := floor30_le t.raw15.toNat
  have h2 := t.raw15.isLt
  unfold Record.altitudeM
  rw [BitVec.toNat_ofNat]
  omega

/-- A written altitude, marker and all, is read back (R61). -/
@[simp] theorem Record.raw15_withAltitude (t : Record) (a : BitVec 15) : (t.withAltitude a).raw15 = a := by
  have h : (t.withAltitude a).memRead2 2 = (1#1 ++ a : BitVec 16) := by
    show (1#1 ++ a : BitVec 16).extractLsb' 8 8 ++ (1#1 ++ a : BitVec 16).extractLsb' 0 8 = 1#1 ++ a
    apply BitVec.eq_of_getLsbD_eq
    intro i hi
    rw [BitVec.getLsbD_append]
    by_cases h8 : i < 8
    · simp [h8]
    · simp [h8, show i - 8 < 8 by omega, show 8 + (i - 8) = i by omega]
  unfold Record.raw15
  rw [h]
  apply BitVec.eq_of_getLsbD_eq
  intro i hi
  rw [BitVec.getLsbD_setWidth, decide_eq_true hi, Bool.true_and]
  exact BitVec.getLsbD_append.trans (by rw [if_pos hi])

@[simp] theorem Record.altMarker_withAltitude (t : Record) (a : BitVec 15) : (t.withAltitude a).altMarker = true := by
  show ((1#1 ++ a : BitVec 16).extractLsb' 8 8).getLsbD 7 = true
  rw [BitVec.getLsbD_extractLsb']
  exact (congrArg _ BitVec.getLsbD_append).trans rfl

/-- The 16-bit word at offset 2 is the marker above the 15-bit altitude (R61). -/
theorem Record.raw15_bytes (t : Record) : t.raw15.toNat = (t.altHi.toNat % 128) * 256 + t.altLo.toNat := by
  have hl := t.altLo.isLt
  have hh := t.altHi.isLt
  show ((t.altHi ++ t.altLo).setWidth 15).toNat = _
  rw [BitVec.toNat_setWidth, BitVec.toNat_append, ← Nat.shiftLeft_add_eq_or_of_lt hl, Nat.shiftLeft_eq]
  omega

/-! ### The length of a read -/

theorem lengthOk_of_le (len : Byte) (h : 17 ≤ len.toNat) : lengthOk len = true := decide_eq_true h
theorem lengthOk_of_lt (len : Byte) (h : len.toNat < 17) : lengthOk len = false := decide_eq_false (Nat.not_le.2 h)
theorem le_of_lengthOk (len : Byte) (h : lengthOk len = true) : 17 ≤ len.toNat := of_decide_eq_true h
theorem lt_of_not_lengthOk (len : Byte) (h : lengthOk len = false) : len.toNat < 17 :=
  Nat.not_le.1 (of_decide_eq_false h)

/-! ### Flag bits -/

theorem withBit3_bit3 : ∀ (b : Byte) (v : Bool), bitOf (withBit3 b v) 3 = v := by decide
theorem withBit3_other : ∀ (b : Byte) (v : Bool) (k : Fin 8), k ≠ 3 → bitOf (withBit3 b v) k = bitOf b k := by decide
theorem clearEnabled_bit : ∀ b : Byte, bitOf (b &&& 0xF7) 3 = false := by decide
theorem setEnabled_bit : ∀ b : Byte, bitOf (b ||| 0x08) 3 = true := by decide

/-- The submode bit replaced by itself changes nothing. -/
theorem withBit3_self : ∀ b : Byte, withBit3 b (bitOf b 3) = b := by decide
theorem withBit3_withBit3 : ∀ (b : Byte) (v w : Bool), withBit3 (withBit3 b v) w = withBit3 b w := by decide

/-- Byte 16 of a written record read again with its own bit 3 as the submode (R63). -/
theorem wireCounter_self (n : Byte) (e sm : Bool) :
    wireCounter n e (bitOf (wireCounter n e sm) 3) = wireCounter n e sm := by
  cases e
  · rfl
  · simp only [wireCounter, if_true, withBit3_bit3]

/-! ### Pack, byte by byte (R121) -/

section pack
variable (r : Record) (c : Byte) (upd : Record → Record) (sm : Bool)

theorem sentinel_eq (t : Record) : t.sentinel =
    { t with schedT2 := if t.schedEnabled then t.schedT2 else Config.sentTemp
             schedMin := if t.schedEnabled then t.schedMin else Config.sentMin
             schedHour := if t.schedEnabled then t.schedHour else Config.sentHour } := by
  unfold Record.sentinel; cases t.schedEnabled <;> rfl

/-- pack written out: what each of the seventeen bytes becomes. -/
theorem pack_eq : pack r c upd sm =
    { (upd r).rebucket with
      schedT2 := if (upd r).schedEnabled then (upd r).schedT2 else Config.sentTemp
      schedMin := if (upd r).schedEnabled then (upd r).schedMin else Config.sentMin
      schedHour := if (upd r).schedEnabled then (upd r).schedHour else Config.sentHour
      counter := wireCounter (c + 1) (upd r).schedEnabled sm } := by
  unfold pack; rw [sentinel_eq]; rfl

@[simp] theorem pack_status : (pack r c upd sm).status = (upd r).status := by rw [pack_eq]; rfl
@[simp] theorem pack_control : (pack r c upd sm).control = (upd r).control := by rw [pack_eq]; rfl
@[simp] theorem pack_targetT2 : (pack r c upd sm).targetT2 = (upd r).targetT2 := by rw [pack_eq]; rfl
@[simp] theorem pack_byte5 : (pack r c upd sm).byte5 = (upd r).byte5 := by rw [pack_eq]; rfl
@[simp] theorem pack_byte7 : (pack r c upd sm).byte7 = (upd r).byte7 := by rw [pack_eq]; rfl
@[simp] theorem pack_clockMin : (pack r c upd sm).clockMin = (upd r).clockMin := by rw [pack_eq]; rfl
@[simp] theorem pack_clockHour : (pack r c upd sm).clockHour = (upd r).clockHour := by rw [pack_eq]; rfl
@[simp] theorem pack_clockMode : (pack r c upd sm).clockMode = (upd r).clockMode := by rw [pack_eq]; rfl
@[simp] theorem pack_hold : (pack r c upd sm).hold = (upd r).hold := by rw [pack_eq]; rfl
@[simp] theorem pack_chime : (pack r c upd sm).chime = (upd r).chime := by rw [pack_eq]; rfl
@[simp] theorem pack_language : (pack r c upd sm).language = (upd r).language := by rw [pack_eq]; rfl
@[simp] theorem pack_schedT2 :
    (pack r c upd sm).schedT2 = if (upd r).schedEnabled then (upd r).schedT2 else Config.sentTemp := by rw [pack_eq]
@[simp] theorem pack_schedMin :
    (pack r c upd sm).schedMin = if (upd r).schedEnabled then (upd r).schedMin else Config.sentMin := by rw [pack_eq]
@[simp] theorem pack_schedHour :
    (pack r c upd sm).schedHour = if (upd r).schedEnabled then (upd r).schedHour else Config.sentHour := by rw [pack_eq]
@[simp] theorem pack_counter :
    (pack r c upd sm).counter = wireCounter (c + 1) (upd r).schedEnabled sm := by rw [pack_eq]
@[simp] theorem pack_schedEnabled : (pack r c upd sm).schedEnabled = (upd r).schedEnabled := by
  unfold Record.schedEnabled; rw [pack_status]

/-- The altitude of a packed buffer is the bucket of what the update left (R122). -/
@[simp] theorem pack_raw15 : (pack r c upd sm).raw15 = (upd r).altitudeM := by
  rw [pack_eq]; exact Record.raw15_withAltitude (upd r) _

@[simp] theorem pack_altMarker : (pack r c upd sm).altMarker = true := by
  rw [pack_eq]; exact Record.altMarker_withAltitude (upd r) (upd r).altitudeM

/-- Every packed buffer is canonical (R97). -/
theorem pack_canonical : (pack r c upd sm).Canonical where
  marker := pack_altMarker r c upd sm
  bucket := by rw [pack_raw15, Record.altitudeM_toNat]; exact floor30_mod _
  sentinel := by
    intro h
    rw [pack_schedEnabled] at h
    simp [h]

/-- Byte 16 of a packed buffer is the incremented counter, bit 3 its own submode if the schedule is enabled (R219). -/
theorem pack_counter_self : (pack r c upd sm).counter =
    wireCounter (c + 1) (pack r c upd sm).schedEnabled (pack r c upd sm).schedSubmode := by
  unfold Record.schedSubmode
  rw [pack_schedEnabled, pack_counter, wireCounter_self]

/-- A buffer whose update left the uncommanded content alone carries it (R24). -/
theorem pack_sameUncommanded (h : (upd r).SameUncommanded r) : (pack r c upd sm).SameUncommanded r where
  status := by rw [pack_status]; exact h.status
  control := by rw [pack_control]; exact h.control
  byte5 := by rw [pack_byte5]; exact h.byte5
  byte7 := by rw [pack_byte7]; exact h.byte7

end pack

theorem Record.SameUncommanded.refl (r : Record) : r.SameUncommanded r := ⟨rfl, rfl, rfl, rfl⟩

theorem updDisable_sameUncommanded (r : Record) : (updDisable r).SameUncommanded r where
  status := (by decide : ∀ b : Byte, (b &&& 0xF7) &&& 0xF7 = b &&& 0xF7) r.status
  control := rfl
  byte5 := rfl
  byte7 := rfl

theorem updEnable_sameUncommanded (l : Latched) (r : Record) : (updEnable l r).SameUncommanded r where
  status := (by decide : ∀ b : Byte, (b ||| 0x08) &&& 0xF7 = b &&& 0xF7) r.status
  control := rfl
  byte5 := rfl
  byte7 := rfl

theorem setPreBoil_sameUncommanded (e : Bool) (r : Record) : (r.setPreBoil e).SameUncommanded r where
  status := rfl
  control := (by decide : ∀ (b : Byte) (e : Bool), withBit3 b e &&& 0xF7 = b &&& 0xF7) r.control e
  byte5 := rfl
  byte7 := rfl

@[simp] theorem updDisable_schedEnabled (r : Record) : (updDisable r).schedEnabled = false := clearEnabled_bit r.status
@[simp] theorem updEnable_schedEnabled (l : Latched) (r : Record) : (updEnable l r).schedEnabled = true :=
  setEnabled_bit r.status

end Sys2Proof.Machine
end

