-- ==== Sys2Proof/Laws/Encoding.lean ====
section
/-! SUPPORT. The command word and its fields determine each other, an `A16` field and its number determine each other, and
what a mask and a pattern over the word say field by field. -/

namespace Sys2Proof

/-- Two command words with the same fields are the same word. -/
theorem CmdFields.ofWord_injective (w w' : CmdWord) (h : CmdFields.ofWord w = CmdFields.ofWord w') : w = w' := by
  simp only [CmdFields.ofWord, CmdFields.mk.injEq] at h
  obtain ⟨h7, h6, h4, h3, h2, h1, h0⟩ := h
  apply BitVec.eq_of_getLsbD_eq
  intro i hi
  have bit (lo n : Nat) (e : w.extractLsb' lo n = w'.extractLsb' lo n) (hl : lo ≤ i) (hn : i < lo + n) :
      w.getLsbD i = w'.getLsbD i := by
    have := congrArg (fun x => x.getLsbD (i - lo)) e
    simpa [BitVec.getLsbD_extractLsb', show i - lo < n by omega, show lo + (i - lo) = i by omega] using this
  rcases Nat.lt_or_ge i 8 with h | h
  · exact bit 0 8 h0 (by omega) (by omega)
  rcases Nat.lt_or_ge i 16 with h | h
  · exact bit 8 8 h1 (by omega) (by omega)
  rcases Nat.lt_or_ge i 24 with h | h
  · exact bit 16 8 h2 (by omega) (by omega)
  rcases Nat.lt_or_ge i 32 with h | h
  · exact bit 24 8 h3 (by omega) (by omega)
  rcases Nat.lt_or_ge i 48 with h | h
  · exact bit 32 16 h4 (by omega) (by omega)
  rcases Nat.lt_or_ge i 56 with h | h
  · exact bit 48 8 h6 (by omega) (by omega)
  · exact bit 56 8 h7 (by omega) (by omega)

/-- The fields of a word built from fields are those fields (R64). -/
theorem CmdFields.ofWord_toWord (f : CmdFields) : CmdFields.ofWord f.toWord = f := by
  rcases f with ⟨o, g, a, b, c, d, r⟩
  simp only [CmdFields.ofWord, CmdFields.toWord, CmdFields.mk.injEq]
  refine ⟨?_, ?_, ?_, ?_, ?_, ?_, ?_⟩ <;> apply BitVec.eq_of_getLsbD_eq <;> intro i hi <;>
    simp only [BitVec.getLsbD_extractLsb', BitVec.getLsbD_append, hi, decide_true, Bool.true_and]
  · simp [show ¬(56 + i < 8) by omega, show ¬(56 + i - 8 < 8) by omega, show ¬(56 + i - 8 - 8 < 8) by omega,
      show ¬(56 + i - 8 - 8 - 8 < 8) by omega, show ¬(56 + i - 8 - 8 - 8 - 8 < 16) by omega,
      show ¬(56 + i - 8 - 8 - 8 - 8 - 16 < 8) by omega, show 56 + i - 8 - 8 - 8 - 8 - 16 - 8 = i by omega]
  · simp [show ¬(48 + i < 8) by omega, show ¬(48 + i - 8 < 8) by omega, show ¬(48 + i - 8 - 8 < 8) by omega,
      show ¬(48 + i - 8 - 8 - 8 < 8) by omega, show ¬(48 + i - 8 - 8 - 8 - 8 < 16) by omega,
      show 48 + i - 8 - 8 - 8 - 8 - 16 = i by omega, hi]
  · simp [show ¬(32 + i < 8) by omega, show ¬(32 + i - 8 < 8) by omega, show ¬(32 + i - 8 - 8 < 8) by omega,
      show ¬(32 + i - 8 - 8 - 8 < 8) by omega, show 32 + i - 8 - 8 - 8 - 8 = i by omega, hi]
  · simp [show ¬(24 + i < 8) by omega, show ¬(24 + i - 8 < 8) by omega, show ¬(24 + i - 8 - 8 < 8) by omega,
      show 24 + i - 8 - 8 - 8 = i by omega, hi]
  · simp [show ¬(16 + i < 8) by omega, show ¬(16 + i - 8 < 8) by omega, show 16 + i - 8 - 8 = i by omega, hi]
  · simp [show ¬(8 + i < 8) by omega, show 8 + i - 8 = i by omega, hi]
  · simp [hi]

/-- A word built from its own fields is that word (R64). -/
theorem CmdFields.toWord_ofWord (w : CmdWord) : (CmdFields.ofWord w).toWord = w :=
  CmdFields.ofWord_injective _ _ (CmdFields.ofWord_toWord _)

/-- `sext_16` is Lean's signed reading of a bit vector (R7). -/
theorem sext16_eq_toInt (x : BitVec 16) : sext16 x = x.toInt := by
  unfold sext16
  rw [BitVec.toInt_eq_toNat_cond]
  have := x.isLt
  split <;> split <;> omega

/-- A number the field can express comes back from its field (R65). -/
theorem sext16_toA16 (v : Int) (h : fitsA16 v = true) : sext16 (toA16 v) = v := by
  simp only [fitsA16, Bool.and_eq_true, decide_eq_true_eq] at h
  rw [sext16_eq_toInt, toA16, BitVec.toInt_ofInt]
  exact Int.bmod_eq_of_le (by norm_num; omega) (by norm_num; omega)

/-- A field is the encoding of its number (R65). -/
theorem toA16_sext16 (x : BitVec 16) : toA16 (sext16 x) = x := by
  rw [sext16_eq_toInt, toA16, BitVec.ofInt_toInt]

/-- A field's number is in the range R65 gives. -/
theorem fitsA16_sext16 (x : BitVec 16) : fitsA16 (sext16 x) = true := by
  have := x.isLt
  rw [fitsA16, Bool.and_eq_true, decide_eq_true_iff, decide_eq_true_iff]
  unfold sext16
  split <;> omega

/-- Masking a word masks each of its fields. -/
theorem CmdFields.ofWord_and (w m : CmdWord) :
    CmdFields.ofWord (w &&& m) =
      { opc := (CmdFields.ofWord w).opc &&& (CmdFields.ofWord m).opc
        flg := (CmdFields.ofWord w).flg &&& (CmdFields.ofWord m).flg
        a16 := (CmdFields.ofWord w).a16 &&& (CmdFields.ofWord m).a16
        b8 := (CmdFields.ofWord w).b8 &&& (CmdFields.ofWord m).b8
        c8 := (CmdFields.ofWord w).c8 &&& (CmdFields.ofWord m).c8
        d8 := (CmdFields.ofWord w).d8 &&& (CmdFields.ofWord m).d8
        rsv := (CmdFields.ofWord w).rsv &&& (CmdFields.ofWord m).rsv } := by
  simp [CmdFields.ofWord, BitVec.extractLsb'_and]

/-- A word matches a row exactly when each of its fields, masked, is the row's (R66). -/
theorem CmdRow.matchesWord_iff (r : CmdRow) (w : CmdWord) :
    r.matchesWord w = true ↔
      (CmdFields.ofWord w).opc &&& (CmdFields.ofWord r.mask).opc = (CmdFields.ofWord r.pat).opc ∧
      (CmdFields.ofWord w).flg &&& (CmdFields.ofWord r.mask).flg = (CmdFields.ofWord r.pat).flg ∧
      (CmdFields.ofWord w).a16 &&& (CmdFields.ofWord r.mask).a16 = (CmdFields.ofWord r.pat).a16 ∧
      (CmdFields.ofWord w).b8 &&& (CmdFields.ofWord r.mask).b8 = (CmdFields.ofWord r.pat).b8 ∧
      (CmdFields.ofWord w).c8 &&& (CmdFields.ofWord r.mask).c8 = (CmdFields.ofWord r.pat).c8 ∧
      (CmdFields.ofWord w).d8 &&& (CmdFields.ofWord r.mask).d8 = (CmdFields.ofWord r.pat).d8 ∧
      (CmdFields.ofWord w).rsv &&& (CmdFields.ofWord r.mask).rsv = (CmdFields.ofWord r.pat).rsv := by
  have key : r.matchesWord w = true ↔ CmdFields.ofWord (w &&& r.mask) = CmdFields.ofWord r.pat := by
    simp only [CmdRow.matchesWord, beq_iff_eq]
    exact ⟨fun h => by rw [h], CmdFields.ofWord_injective _ _⟩
  rw [key, CmdFields.ofWord_and]
  constructor
  · intro h
    exact ⟨congrArg CmdFields.opc h, congrArg CmdFields.flg h, congrArg CmdFields.a16 h, congrArg CmdFields.b8 h,
      congrArg CmdFields.c8 h, congrArg CmdFields.d8 h, congrArg CmdFields.rsv h⟩
  · rintro ⟨h1, h2, h3, h4, h5, h6, h7⟩
    rw [h1, h2, h3, h4, h5, h6, h7]

/-- The flag byte of SET_PRE_BOIL and SET_CLOCK is its bit 0 and seven reserved bits. -/
theorem flg_bit0 : ∀ g : Byte, g &&& 0xFE = 0 ↔ g.extractLsb' 1 7 = 0 := by decide

/-- The flag byte of SET_SCHEDULE is a 2-bit mode and six reserved bits. -/
theorem flg_mode : ∀ g : Byte, g &&& 0xFC = 0 ↔ g.extractLsb' 2 6 = 0 := by decide

/-- A 2-bit mode comes back from the flag byte that carries it, and fills no reserved bit. -/
theorem flg_of_mode : ∀ k : BitVec 2, (k.setWidth 8).extractLsb' 0 2 = k ∧ (k.setWidth 8).extractLsb' 2 6 = 0 := by
  decide

/-- Every event code's event encodes to that code. -/
theorem encode_decodeEvent : ∀ c : EvCode, encode (decodeEvent c) = .ev c := by decide

/-- A must-be-zero check that passed gives the instruction it guarded. -/
theorem mustBeZero_ok (z : Bool) (i j : Instr) : mustBeZero z i = .ok j ↔ z = true ∧ i = j := by
  cases z <;> simp [mustBeZero]

end Sys2Proof
end

