-- ==== Sys2Proof/Laws/Exec.lean ====
section
/-! SUPPORT. What an instruction and a step can do, said once: `Effect` lists every change exec can make, `exec_effect` says
there is no other, and `step_cases` says what a step adds around it. -/

namespace Sys2Proof.Machine

/-! ### The checks of a command (R128) -/

theorem whenReady_idle (s u : State) (h : s.phase = .idle) : s.whenReady u = u := by
  simp [State.whenReady, State.cmdReady, h]

theorem whenReady_busy (s u : State) (h : s.phase ≠ .idle) : s.whenReady u = s := by
  simp [State.whenReady, State.cmdReady, h]

theorem checkRecord_present (s u : State) (h : s.recValid = true) : s.checkRecord u = u := by
  simp [State.checkRecord, h]

theorem checkRecord_absent (s u : State) (h : s.recValid = false) : s.checkRecord u = s.raise .notConnected 0x00 := by
  simp [State.checkRecord, h]

/-- A setter that is accepted, whose operands pass and that finds a record, writes once. -/
theorem setField_writes (s : State) (upd : Record → Record) (hp : s.phase = .idle) (hr : s.recValid = true) :
    s.setField none upd = s.writeOne upd s.record.schedSubmode := by
  rw [State.setField, whenReady_idle _ _ hp]
  exact checkRecord_present _ _ hr

theorem setField_bad (s : State) (f : FieldId) (upd : Record → Record) (hp : s.phase = .idle) :
    s.setField (some f) upd = s.raise .invalidArgument f.info := by
  rw [State.setField, whenReady_idle _ _ hp]; rfl

theorem setField_absent (s : State) (upd : Record → Record) (hp : s.phase = .idle) (hr : s.recValid = false) :
    s.setField none upd = s.raise .notConnected 0x00 := by
  rw [State.setField, whenReady_idle _ _ hp]
  exact checkRecord_absent _ _ hr

theorem setField_busy (s : State) (bad : Option FieldId) (upd : Record → Record) (hp : s.phase ≠ .idle) :
    s.setField bad upd = s := whenReady_busy _ _ hp

theorem badTime_none (h m : Byte) (e : badTime h m = none) : h.toNat ≤ 23 ∧ m.toNat ≤ 59 := by
  unfold badTime hourOk minuteOk at e
  by_cases h1 : h.toNat ≤ 23 <;> by_cases h2 : m.toNat ≤ 59 <;> simp_all

/-! ### Every change exec can make -/

/-- A latched request inside its domain (R184). -/
structure Latched.InDomain (l : Latched) : Prop where
  hour : l.hour.toNat ≤ 23
  minute : l.minute.toNat ≤ 59
  t2 : l.t2.toNat ≤ 200

/-- The changes an instruction can make to the block (the table of R210, with the rules its cells name). -/
inductive Effect : Instr → State → State → Prop
  | held (i : Instr) (s : State) (hp : s.phase ≠ .idle) (hi : i.isEvent = false) : Effect i s s
  | rejected (i : Instr) (s : State) (e : ResultCode) (info : Byte) (hp : s.phase = .idle) (hi : i.isEvent = false)
      (he : e ≠ .ok) : Effect i s (s.raise e info)
  | read (i : Instr) (s : State) (v : View) (hp : s.phase = .idle) (hi : i = .decode ∨ i = .getState)
      (hr : i = .getState → s.recValid = true ∧ v = view s.cfg s.record s.ctr)
      (hd : i = .decode → decodeRead s.cfg s.ports.rxBuf s.ports.rxLen = some v) : Effect i s (s.completeOk v)
  | loaded (s : State) (hp : s.phase = .idle) (hl : lengthOk s.ports.rxLen = true) :
      Effect .load s (s.fill s.ports.rxBuf).completeWithRecord
  | loadFailed (s : State) (hp : s.phase = .idle) (hl : lengthOk s.ports.rxLen = false) :
      Effect .load s (s.discard.raise .decodeError 0x00)
  | wrote (i : Instr) (s : State) (upd : Record → Record) (sm : Bool) (hp : s.phase = .idle) (hi : i.isSetter = true)
      (hr : s.recValid = true) (hu : (upd s.record).SameUncommanded s.record) : Effect i s (s.writeOne upd sm)
  | began (k : BitVec 2) (h m : Byte) (v : Int) (s : State) (l : Latched) (hp : s.phase = .idle) (hr : s.recValid = true)
      (hs : s.record.schedMode ≠ .off) (hl : l.InDomain) : Effect (.setSchedule k h m v) s (s.beginTwoStep l)
  | committed (s : State) (hp : s.phase = .waitSingle ∨ s.phase = .waitStep3) :
      Effect .wrAck s (s.commit.toPhase .idle).completeWithRecord
  | settling (s : State) (hp : s.phase = .waitStep1) : Effect .wrAck s s.commit.startSettle
  | lost (i : Instr) (s : State) (e : ResultCode) (info : Byte) (hp : s.phase ≠ .idle)
      (hi : i = .wrFail ∨ i = .invalidate) (he : e ≠ .ok) : Effect i s ((s.discard.toPhase .idle).raise e info)
  | discarded (i : Instr) (s : State) (hp : s.phase = .idle) (hi : i = .wrFail ∨ i = .invalidate) : Effect i s s.discard
  | counted (s : State) (hp : s.phase = .settle) (hn : s.settleCnt - 1 ≠ 0) :
      Effect .tick s { s with settleCnt := s.settleCnt - 1 }
  | expired (s : State) (hp : s.phase = .settle) (hn : s.settleCnt - 1 = 0) :
      Effect .tick s { s with settleCnt := s.settleCnt - 1 }.issueStep3
  | ignored (i : Instr) (s : State) (hi : i.isEvent = true) (hf : i ≠ .wrFail ∧ i ≠ .invalidate)
      (ha : i = .wrAck → s.writeInFlight = false) (ht : i = .tick → s.phase ≠ .settle) : Effect i s s

/-- A mutating command is a command. -/
theorem isEvent_of_isSetter (i : Instr) (h : i.isSetter = true) : i.isEvent = false := by
  cases i <;> first | rfl | simp [Instr.isSetter] at h

theorem setField_effect (i : Instr) (s : State) (bad : Option FieldId) (upd : Record → Record) (hw : i.isSetter = true)
    (hu : (upd s.record).SameUncommanded s.record) : Effect i s (s.setField bad upd) := by
  have hi := isEvent_of_isSetter i hw
  by_cases hp : s.phase = .idle
  · cases bad with
    | some f => rw [setField_bad _ _ _ hp]; exact .rejected i s _ _ hp hi (by decide)
    | none =>
      by_cases hr : s.recValid = true
      · rw [setField_writes _ _ hp hr]; exact .wrote i s _ _ hp hw hr hu
      · rw [setField_absent _ _ hp (by simpa using hr)]; exact .rejected i s _ _ hp hi (by decide)
  · rw [setField_busy _ _ _ hp]; exact .held i s hp hi

theorem loseSession_effect (i : Instr) (s : State) (hi : i = .wrFail ∨ i = .invalidate) : Effect i s s.loseSession := by
  unfold State.loseSession
  split <;> rename_i hp
  · exact .lost i s _ _ (by rw [hp]; decide) hi (by decide)
  · exact .lost i s _ _ (by rw [hp]; decide) hi (by decide)
  · exact .lost i s _ _ (by rw [hp]; decide) hi (by decide)
  · exact .lost i s _ _ (by rw [hp]; decide) hi (by decide)
  · exact .discarded i s hp hi

theorem enableOrSwitch_effect (k : BitVec 2) (h m : Byte) (v : Int) (s : State) (target : SchedMode) (l : Latched)
    (hp : s.phase = .idle) (hr : s.recValid = true) (hl : l.InDomain) :
    Effect (.setSchedule k h m v) s (s.enableOrSwitch target l) := by
  unfold State.enableOrSwitch
  split
  · exact .wrote _ s _ _ hp rfl hr (updEnable_sameUncommanded l _)
  · rename_i hn
    exact .began k h m v s l hp hr (fun e => hn (.inl e)) hl

theorem setSchedule_effect (k : BitVec 2) (h m : Byte) (v : Int) (s t : State)
    (e : execSetSchedule k h m v s = .next t) : Effect (.setSchedule k h m v) s t := by
  have hi : (Instr.setSchedule k h m v).isEvent = false := rfl
  injection e with e
  subst e
  by_cases hp : s.phase = .idle
  · rw [whenReady_idle _ _ hp]
    cases hb : badSchedule k h m with
    | some f => exact .rejected _ s .invalidArgument f.info hp hi (by decide)
    | none =>
      by_cases hr : s.recValid = true
      · show Effect _ s (s.checkRecord _)
        rw [checkRecord_present _ _ hr]
        unfold badSchedule at hb
        cases hk : schedModeOfCode k with
        | none => simp [hk] at hb
        | some tgt =>
          simp only [hk] at hb
          cases tgt with
          | off => exact .wrote _ s _ _ hp rfl hr (updDisable_sameUncommanded _)
          | once => exact enableOrSwitch_effect k h m v s _ _ hp hr ⟨(badTime_none _ _ hb).1, (badTime_none _ _ hb).2, clampT2_le v⟩
          | daily => exact enableOrSwitch_effect k h m v s _ _ hp hr ⟨(badTime_none _ _ hb).1, (badTime_none _ _ hb).2, clampT2_le v⟩
      · show Effect _ s (s.checkRecord _)
        rw [checkRecord_absent _ _ (by simpa using hr)]
        exact .rejected _ s _ _ hp hi (by decide)
  · rw [whenReady_busy _ _ hp]; exact .held _ s hp hi

theorem wrAck_effect (s t : State) (e : execWrAck s = .next t) : Effect .wrAck s t := by
  injection e with e
  subst e
  cases hp : s.phase with
  | idle => exact .ignored _ s rfl (by decide) (fun _ => by simp [State.writeInFlight, hp]) nofun
  | waitSingle => exact .committed s (.inl hp)
  | waitStep1 => exact .settling s hp
  | settle => exact .ignored _ s rfl (by decide) (fun _ => by simp [State.writeInFlight, hp]) nofun
  | waitStep3 => exact .committed s (.inr hp)

theorem tick_effect (s t : State) (e : execTick s = .next t) : Effect .tick s t := by
  injection e with e
  subst e
  cases hp : s.phase with
  | settle =>
    show Effect .tick s s.settleTick
    by_cases hn : s.settleCnt - 1 = 0
    · have : s.settleTick = { s with settleCnt := s.settleCnt - 1 }.issueStep3 := if_pos hn
      rw [this]; exact .expired s hp hn
    · have : s.settleTick = { s with settleCnt := s.settleCnt - 1 } := if_neg hn
      rw [this]; exact .counted s hp hn
  | idle => exact .ignored _ s rfl (by decide) nofun (fun _ => by simp [hp])
  | waitSingle => exact .ignored _ s rfl (by decide) nofun (fun _ => by simp [hp])
  | waitStep1 => exact .ignored _ s rfl (by decide) nofun (fun _ => by simp [hp])
  | waitStep3 => exact .ignored _ s rfl (by decide) nofun (fun _ => by simp [hp])

/-- A command that is accepted only in IDLE either is held or has its accepted effect. -/
theorem whenReady_effect (i : Instr) (s u : State) (hi : i.isEvent = false)
    (h : s.phase = .idle → Effect i s u) : Effect i s (s.whenReady u) := by
  by_cases hp : s.phase = .idle
  · rw [whenReady_idle _ _ hp]; exact h hp
  · rw [whenReady_busy _ _ hp]; exact .held i s hp hi

/-- A command that needs the cached record either is NotConnected or has its effect. -/
theorem checkRecord_effect (i : Instr) (s u : State) (hi : i.isEvent = false) (hp : s.phase = .idle)
    (h : s.recValid = true → Effect i s u) : Effect i s (s.checkRecord u) := by
  by_cases hr : s.recValid = true
  · rw [checkRecord_present _ _ hr]; exact h hr
  · rw [checkRecord_absent _ _ (by simpa using hr)]; exact .rejected i s _ _ hp hi (by decide)

/-- What exec answers is one of the listed changes. -/
theorem exec_effect (i : Instr) (s t : State) (h : exec i s = .next t) : Effect i s t := by
  cases i with
  | decode =>
    injection h with h; subst h
    refine whenReady_effect _ s _ rfl fun hp => ?_
    cases hd : decodeRead s.cfg s.ports.rxBuf s.ports.rxLen with
    | none => exact .rejected _ s _ _ hp rfl (by decide)
    | some v => exact .read _ s v hp (.inl rfl) nofun (fun _ => hd)
  | load =>
    injection h with h; subst h
    refine whenReady_effect _ s _ rfl fun hp => ?_
    split
    · exact .loaded s hp ‹_›
    · rename_i hl; exact .loadFailed s hp (by simpa using hl)
  | getState =>
    injection h with h; subst h
    refine whenReady_effect _ s _ rfl fun hp => checkRecord_effect _ s _ rfl hp fun hr => ?_
    exact .read _ s _ hp (.inr rfl) (fun _ => ⟨hr, rfl⟩) nofun
  | setTargetTemp v => injection h with h; subst h; exact setField_effect _ s _ _ rfl ⟨rfl, rfl, rfl, rfl⟩
  | setHoldTime v => injection h with h; subst h; exact setField_effect _ s _ _ rfl ⟨rfl, rfl, rfl, rfl⟩
  | setChimeVolume v => injection h with h; subst h; exact setField_effect _ s _ _ rfl ⟨rfl, rfl, rfl, rfl⟩
  | setPreBoil e => injection h with h; subst h; exact setField_effect _ s _ _ rfl (setPreBoil_sameUncommanded e _)
  | setAltitude v => injection h with h; subst h; exact setField_effect _ s _ _ rfl ⟨rfl, rfl, rfl, rfl⟩
  | setClock hr m => injection h with h; subst h; exact setField_effect _ s _ _ rfl ⟨rfl, rfl, rfl, rfl⟩
  | setClockMode hr m d => injection h with h; subst h; exact setField_effect _ s _ _ rfl ⟨rfl, rfl, rfl, rfl⟩
  | setLanguage c => injection h with h; subst h; exact setField_effect _ s _ _ rfl ⟨rfl, rfl, rfl, rfl⟩
  | setSchedule k hr m v => exact setSchedule_effect k hr m v s t h
  | disableSchedule =>
    injection h with h; subst h
    refine whenReady_effect _ s _ rfl fun hp => checkRecord_effect _ s _ rfl hp fun hr => ?_
    exact .wrote _ s _ _ hp rfl hr (updDisable_sameUncommanded _)
  | wrAck => exact wrAck_effect s t h
  | wrFail => injection h with h; subst h; exact loseSession_effect _ s (.inl rfl)
  | tick => exact tick_effect s t h
  | invalidate => injection h with h; subst h; exact loseSession_effect _ s (.inr rfl)
  | evReserved0 => injection h with h; subst h; exact .ignored _ s rfl (by decide) nofun nofun
  | evReserved5 => injection h with h; subst h; exact .ignored _ s rfl (by decide) nofun nofun
  | evReserved6 => injection h with h; subst h; exact .ignored _ s rfl (by decide) nofun nofun
  | evReserved7 => injection h with h; subst h; exact .ignored _ s rfl (by decide) nofun nofun

/-- Every instruction has a next state in every state. -/
theorem exec_answers_next (i : Instr) (s : State) : ∃ t, exec i s = .next t := by
  cases i <;> exact ⟨_, rfl⟩

/-! ### What a step adds -/

theorem mapNext_eq_next (f : State → State) (o : Outcome) (t : State) :
    mapNext f o = .next t ↔ ∃ u, o = .next u ∧ t = f u := by
  cases o <;> simp [mapNext, eq_comm]

/-- The four things a step can be. -/
theorem step_cases (s t : State) (h : step s = .next t) :
    (s.take = .reset ∧ t = s.resetBlock.advance) ∨
    (s.take = .nothing ∧ t = s.lowerStrobes.advance) ∨
    (∃ why, s.take = .illegal why ∧ t = (s.lowerStrobes.rejectIllegal why).advance) ∨
    (∃ i u, s.take = .run i ∧ exec i s.lowerStrobes = .next u ∧ t = u.advance) := by
  unfold step at h
  split at h
  · injection h with h; exact .inl ⟨‹_›, h.symm⟩
  · injection h with h; exact .inr (.inl ⟨‹_›, h.symm⟩)
  · injection h with h; exact .inr (.inr (.inl ⟨_, ‹_›, h.symm⟩))
  · obtain ⟨u, hu, ht⟩ := (mapNext_eq_next _ _ _).1 h
    exact .inr (.inr (.inr ⟨_, u, ‹_›, hu, ht⟩))

/-- An illegal word that is accepted is an error, one that is not is held. -/
theorem rejectIllegal_cases (s : State) (why : Illegal) :
    (s.phase = .idle ∧ s.rejectIllegal why = s.raise .illegalCommand why.info) ∨
    (s.phase ≠ .idle ∧ s.rejectIllegal why = s) := by
  by_cases hp : s.phase = .idle
  · exact .inl ⟨hp, whenReady_idle _ _ hp⟩
  · exact .inr ⟨hp, whenReady_busy _ _ hp⟩

/-- One more step of a run of any machine. -/
theorem coreRun_succ (M : Host.Core) (n : Nat) (s : M.State) : M.run (n + 1) s =
    (match M.step s with | .next t => M.run n t | .fault r => .fault r | .refused r => .refused r) := rfl

/-- A run of the model is a run of the machine behind the host's interface. -/
theorem runSteps_eq_run (n : Nat) (s : State) : runSteps n s = Host.Core.run Sys2Proof.core n s := by
  induction n generalizing s with
  | zero => rfl
  | succ n ih =>
    refine Eq.trans ?_ (coreRun_succ Sys2Proof.core n s).symm
    have hs : Sys2Proof.core.step s = step s := rfl
    rw [runSteps, hs]
    cases step s with
    | next t => exact ih t
    | fault r => rfl
    | refused r => rfl

end Sys2Proof.Machine
end

