-- ==== Sys2Proof/Laws/PerInstr.lean ====
section
/-! SUPPORT. Facts about every instruction as syntax, one lemma per constructor. Family TableRow: an instruction's encoding is on
its own port and is a word of its own row of the opcode table (R66, R69). -/

namespace Sys2Proof.Laws.TableRow

/-- An event is on the event port, under the code its row has; a command is on the command port and matches its row. -/
def Statement (i : Instr) : Prop :=
  (i.isEvent = true ∧ cmdRow i = none ∧ ∃ c, encode i = .ev c ∧ decodeEvent c = i) ∨
  (i.isEvent = false ∧ ∃ row f, cmdRow i = some row ∧ encode i = .cmd (CmdFields.toWord f) ∧ row.matchesWord f.toWord = true)

/-- A command's lemma from the fields of its word. -/
theorem of_fields (i : Instr) (row : CmdRow) (f : CmdFields) (hi : i.isEvent = false) (hr : cmdRow i = some row)
    (he : encode i = .cmd f.toWord)
    (hm : f.opc &&& (CmdFields.ofWord row.mask).opc = (CmdFields.ofWord row.pat).opc ∧
      f.flg &&& (CmdFields.ofWord row.mask).flg = (CmdFields.ofWord row.pat).flg ∧
      f.a16 &&& (CmdFields.ofWord row.mask).a16 = (CmdFields.ofWord row.pat).a16 ∧
      f.b8 &&& (CmdFields.ofWord row.mask).b8 = (CmdFields.ofWord row.pat).b8 ∧
      f.c8 &&& (CmdFields.ofWord row.mask).c8 = (CmdFields.ofWord row.pat).c8 ∧
      f.d8 &&& (CmdFields.ofWord row.mask).d8 = (CmdFields.ofWord row.pat).d8 ∧
      f.rsv &&& (CmdFields.ofWord row.mask).rsv = (CmdFields.ofWord row.pat).rsv) : Statement i := by
  refine .inr ⟨hi, row, f, hr, he, (CmdRow.matchesWord_iff _ _).2 ?_⟩
  rw [CmdFields.ofWord_toWord]
  exact hm

theorem decode : Statement .decode := of_fields _ _ _ rfl rfl rfl (by decide)
theorem load : Statement .load := of_fields _ _ _ rfl rfl rfl (by decide)
theorem getState : Statement .getState := of_fields _ _ _ rfl rfl rfl (by decide)
theorem setTargetTemp (t2 : Int) : Statement (.setTargetTemp t2) :=
  of_fields _ _ _ rfl rfl rfl (by simp [CmdFields.ofWord, blankFields])
theorem setHoldTime (minutes : Int) : Statement (.setHoldTime minutes) :=
  of_fields _ _ _ rfl rfl rfl (by simp [CmdFields.ofWord, blankFields])
theorem setChimeVolume (level : Int) : Statement (.setChimeVolume level) :=
  of_fields _ _ _ rfl rfl rfl (by simp [CmdFields.ofWord, blankFields])
theorem setPreBoil (enabled : Bool) : Statement (.setPreBoil enabled) :=
  of_fields _ _ _ rfl rfl rfl (by cases enabled <;> decide)
theorem setAltitude (metres : Int) : Statement (.setAltitude metres) :=
  of_fields _ _ _ rfl rfl rfl (by simp [CmdFields.ofWord, blankFields])
theorem setClock (hour minute : Byte) : Statement (.setClock hour minute) :=
  of_fields _ _ _ rfl rfl rfl (by simp [CmdFields.ofWord, blankFields])
theorem setClockMode (hour minute mode : Byte) : Statement (.setClockMode hour minute mode) :=
  of_fields _ _ _ rfl rfl rfl (by simp [CmdFields.ofWord, blankFields])
theorem setLanguage (code : Byte) : Statement (.setLanguage code) :=
  of_fields _ _ _ rfl rfl rfl (by simp [CmdFields.ofWord, blankFields])
theorem setSchedule (mode : BitVec 2) (hour minute : Byte) (t2 : Int) : Statement (.setSchedule mode hour minute t2) :=
  of_fields _ _ _ rfl rfl rfl (by
    have := (by decide : ∀ k : BitVec 2, k.setWidth 8 &&& 0xFC#8 = 0) mode
    simpa [CmdFields.ofWord, blankFields] using this)
theorem disableSchedule : Statement .disableSchedule := of_fields _ _ _ rfl rfl rfl (by decide)
theorem wrAck : Statement .wrAck := .inl ⟨rfl, rfl, 1, rfl, rfl⟩
theorem wrFail : Statement .wrFail := .inl ⟨rfl, rfl, 2, rfl, rfl⟩
theorem tick : Statement .tick := .inl ⟨rfl, rfl, 3, rfl, rfl⟩
theorem invalidate : Statement .invalidate := .inl ⟨rfl, rfl, 4, rfl, rfl⟩
theorem evReserved0 : Statement .evReserved0 := .inl ⟨rfl, rfl, 0, rfl, rfl⟩
theorem evReserved5 : Statement .evReserved5 := .inl ⟨rfl, rfl, 5, rfl, rfl⟩
theorem evReserved6 : Statement .evReserved6 := .inl ⟨rfl, rfl, 6, rfl, rfl⟩
theorem evReserved7 : Statement .evReserved7 := .inl ⟨rfl, rfl, 7, rfl, rfl⟩

end Sys2Proof.Laws.TableRow
end

