-- ==== Sys2Proof/Tests/Slice0.lean ====
section
/-! SUPPORT. The model's own tests. Expected words, buffers and results are those of spec/95_test_vectors.md (the id is in the
docstring) or of the rule named; then one witness per obligation that has hypotheses. -/

namespace Sys2Proof.Tests

open Sys2Proof Sys2Proof.Machine

/-! ### Helpers -/

/-- `R0` of spec/95_test_vectors.md: schedule off. -/
def r0 : Record := ⟨0x00, 0x02, 0x00, 0x80, 0xAA, 0x00, 0xC0, 0x00, 0x00, 0x00, 0x1E, 0x0A, 0x01, 0x0F, 0x05, 0x00, 0x07⟩
/-- `R2`: Daily. -/
def r2 : Record := ⟨0x08, 0x02, 0xCE, 0x84, 0xAA, 0x00, 0xA0, 0x00, 0x00, 0x06, 0x1E, 0x0A, 0x01, 0x0F, 0x05, 0x00, 0x15⟩
/-- `R5`: Once. -/
def r5 : Record := ⟨0x08, 0x02, 0xCE, 0x84, 0xAA, 0x00, 0xB4, 0x00, 0x1E, 0x07, 0x1E, 0x0A, 0x01, 0x0F, 0x05, 0x00, 0x1F⟩
/-- `R6`: every unassigned bit set, non-sentinel schedule bytes, unknown enums. -/
def r6 : Record := ⟨0xF7, 0xF5, 0xD2, 0x04, 0xFF, 0x5A, 0x12, 0xA5, 0x3B, 0x17, 0x00, 0x00, 0x09, 0x14, 0x0B, 0x7E, 0xFF⟩
/-- The write of S1 from `R0`. -/
def s1 : Record := ⟨0x00, 0x02, 0x00, 0x80, 0x6F, 0x00, 0xC0, 0x00, 0x00, 0x00, 0x1E, 0x0A, 0x01, 0x0F, 0x05, 0x00, 0x08⟩
/-- Step (1) of P3 from `R2`. -/
def p3Step1 : Record := ⟨0x00, 0x02, 0xCE, 0x84, 0xAA, 0x00, 0xC0, 0x00, 0x00, 0x00, 0x1E, 0x0A, 0x01, 0x0F, 0x05, 0x00, 0x16⟩
/-- The request of P3. -/
def p3Lat : Latched := { submode := true, hour := 7, minute := 30, t2 := 180 }

/-- The parameters of the vectors: the defaults and `LANG_SET` = 0, 1. -/
def cfg : Config := { Config.specDefault with langSet := [0x00, 0x01] }

/-- No record yet, a read of `len` bytes on the buffer port. -/
def fresh (r : Record) (len : Byte) : State :=
  { State.reset with cfg := cfg, ports := { State.reset.ports with rxBuf := r, rxLen := len } }

/-- The record loaded, the block idle. -/
def loaded (r : Record) : State := { fresh r 17 with record := r, ctr := r.counter, recValid := true }

/-- A write of `t` in flight. -/
def busy (r t : Record) (p : Phase) : State := { loaded r with txb := t, phase := p }

/-- In the settle delay of P3. -/
def settling (n : BitVec 16) : State :=
  { loaded p3Step1 with txb := p3Step1, phase := .settle, lat := p3Lat, settleCnt := n }

/-- The outcome is a next state with the property. -/
def gives (o : Outcome) (p : State → Bool) : Bool :=
  match o with
  | .next t => p t
  | .fault _ => false
  | .refused _ => false

/-- One step with a command word presented. -/
def cmd (s : State) (w : Nat) : Outcome := step (s.withFetchWord 64 w)

/-- One step with an event presented. -/
def ev (s : State) (c : Nat) : Outcome := step (s.withFetchWord 8 c)

/-- The step issued exactly this buffer and gave no result. -/
def issued (t : Record) (p : Phase) (s : State) : Bool :=
  decide (s.txPort = some t) && decide (s.phase = p) && !s.resValid

/-- The step gave this result in IDLE and issued nothing. -/
def result (code info : Byte) (s : State) : Bool :=
  decide (s.res = { code := code, info := info }) && s.resValid && !s.txValid && decide (s.phase = .idle)

/-! ### WellFormed: ill-formed terms are refused (R65) -/

theorem test_wf_setTargetTemp : Instr.wf (.setTargetTemp 32768) = false ∧ Instr.wf (.setTargetTemp (-32769)) = false := by decide
theorem test_wf_setHoldTime : Instr.wf (.setHoldTime 32768) = false ∧ Instr.wf (.setHoldTime (-32769)) = false := by decide
theorem test_wf_setChimeVolume : Instr.wf (.setChimeVolume 32768) = false ∧ Instr.wf (.setChimeVolume (-32769)) = false := by decide
theorem test_wf_setAltitude : Instr.wf (.setAltitude 32768) = false ∧ Instr.wf (.setAltitude (-32769)) = false := by decide
theorem test_wf_setSchedule : Instr.wf (.setSchedule 1 7 30 32768) = false ∧ Instr.wf (.setSchedule 1 7 30 (-32769)) = false := by decide

/-! ### Decoding: a word of every row, written out from R64 and R66 or R69 -/

/-- Unpack family, bit by bit: OPC, FLG, A16, B8, C8, D8, RSV. -/
theorem test_decode_unpack :
    decodeTableWord 64 0b00000001_00000000_0000000000000000_00000000_00000000_00000000_00000000 = some .decode ∧
    decodeTableWord 64 0b00000010_00000000_0000000000000000_00000000_00000000_00000000_00000000 = some .load ∧
    decodeTableWord 64 0b00000011_00000000_0000000000000000_00000000_00000000_00000000_00000000 = some .getState := by decide

/-- Setters with a numeric operand, bit by bit. -/
theorem test_decode_numeric_setters :
    decodeTableWord 64 0b00010000_00000000_0000000001101111_00000000_00000000_00000000_00000000 = some (.setTargetTemp 111) ∧
    decodeTableWord 64 0b00010001_00000000_1111111111111011_00000000_00000000_00000000_00000000 = some (.setHoldTime (-5)) ∧
    decodeTableWord 64 0b00010010_00000000_0000000000001010_00000000_00000000_00000000_00000000 = some (.setChimeVolume 10) ∧
    decodeTableWord 64 0b00010100_00000000_0000010011010010_00000000_00000000_00000000_00000000 = some (.setAltitude 1234) := by
  decide

/-- The other setters, bit by bit. -/
theorem test_decode_other_setters :
    decodeTableWord 64 0b00010011_00000001_0000000000000000_00000000_00000000_00000000_00000000 = some (.setPreBoil true) ∧
    decodeTableWord 64 0b00010101_00000000_0000000000000000_00010111_00111011_00000000_00000000 = some (.setClock 23 59) ∧
    decodeTableWord 64 0b00010101_00000001_0000000000000000_00000110_00101101_00000010_00000000 = some (.setClockMode 6 45 2) ∧
    decodeTableWord 64 0b00010110_00000000_0000000000000000_00000001_00000000_00000000_00000000 = some (.setLanguage 1) := by decide

/-- Schedule family, bit by bit. -/
theorem test_decode_schedule :
    decodeTableWord 64 0b00010111_00000001_0000000010110100_00000111_00011110_00000000_00000000 = some (.setSchedule 1 7 30 180) ∧
    decodeTableWord 64 0b00011000_00000000_0000000000000000_00000000_00000000_00000000_00000000 = some .disableSchedule := by decide

/-- Events, by code (R69). -/
theorem test_decode_events :
    decodeTableWord 8 1 = some .wrAck ∧ decodeTableWord 8 2 = some .wrFail ∧ decodeTableWord 8 3 = some .tick ∧
    decodeTableWord 8 4 = some .invalidate ∧ decodeTableWord 8 0 = some .evReserved0 ∧ decodeTableWord 8 5 = some .evReserved5 ∧
    decodeTableWord 8 6 = some .evReserved6 ∧ decodeTableWord 8 7 = some .evReserved7 := by decide

/-- V-ERR-1 to V-ERR-5, V-CLK-7, V-SCH-14, V-SCH-15, V-ERR-10: illegal words and why. -/
theorem test_decode_illegal :
    decodeCommand 0x9900000000000000 = .illegal .unknownOpcode ∧ decodeCommand 0 = .illegal .unknownOpcode ∧
    decodeCommand 0x1000000501000000 = .illegal .reservedField ∧ decodeCommand 0x0300000000000001 = .illegal .reservedField ∧
    decodeCommand 0x1302000000000000 = .illegal .reservedField ∧ decodeCommand 0x1500000001010100 = .illegal .reservedField ∧
    decodeCommand 0x1704000000000000 = .illegal .reservedField ∧ decodeCommand 0x170100B4071E0100 = .illegal .reservedField ∧
    decodeCommand 0x0100000000000100 = .illegal .reservedField := by decide

/-! ### One step of each instruction -/

/-- V-UNP-4: nothing is rejected or clamped on a read. -/
theorem test_decode_reports_the_raw_record : gives (cmd (fresh r6 17) 0x0100000000000000) (fun t =>
    result 0x00 0x00 t && !t.recValid && (match t.viewPort with
      | some v => decide (v.altitudeM = 1230) && !v.altMarker && decide (v.schedMode = .off) && v.schedSubmode
          && decide (v.clockMode = .unrecognized) && !v.languageKnown && decide (v.targetT2 = 255) && decide (v.counter = 0xFF)
          && decide (v.statusOther = 0xF7) && decide (v.controlOther = 0xF5)
      | none => false)) = true := by decide

/-- V-UNP-5. -/
theorem test_decode_short : gives (cmd (fresh r0 16) 0x0100000000000000) (result 0x06 0x00) = true := by decide

/-- V-UNP-10: no normalisation on load. -/
theorem test_load_keeps_every_byte : gives (cmd (fresh r6 17) 0x0200000000000000) (fun t =>
    result 0x00 0x00 t && decide (t.record = r6) && decide (t.ctr = 0xFF) && t.recValid) = true := by decide

/-- V-UNP-9. -/
theorem test_load_short_discards :
    gives (cmd { loaded r0 with ports := (fresh r0 16).ports } 0x0200000000000000) (fun t =>
      result 0x06 0x00 t && !t.recValid) = true := by decide

/-- V-UNP-12, V-UNP-3. -/
theorem test_getState_once : gives (cmd (loaded r5) 0x0300000000000000) (fun t =>
    result 0x00 0x00 t && (match t.viewPort with
      | some v => decide (v.schedMode = .once) && decide (v.schedHour = 7) && decide (v.schedMinute = 30) && decide (v.counterRaw = 0x1F)
      | none => false)) = true := by decide

/-- V-UNP-11. -/
theorem test_getState_absent : gives (cmd (fresh r0 17) 0x0300000000000000) (result 0x01 0x00) = true := by decide

/-- S1. -/
theorem test_setTargetTemp_s1 : gives (cmd (loaded r0) 0x1000006F00000000) (issued s1 .waitSingle) = true := by decide

/-- V-TMP-6. -/
theorem test_setTargetTemp_low :
    gives (cmd (loaded r0) 0x1000800000000000) (issued { s1 with targetT2 := 0x00 } .waitSingle) = true := by decide

/-- V-HLD-3: written raw. -/
theorem test_setHoldTime_raw :
    gives (cmd (loaded r0) 0x1100001400000000) (issued { s1 with targetT2 := 0xAA, hold := 0x14 } .waitSingle) = true := by decide

/-- V-HLD-5. -/
theorem test_setHoldTime_high :
    gives (cmd (loaded r0) 0x1100003D00000000) (issued { s1 with targetT2 := 0xAA, hold := 0x3C } .waitSingle) = true := by decide

/-- V-CHM-5. -/
theorem test_setChimeVolume_high :
    gives (cmd (loaded r0) 0x120000FF00000000) (issued { s1 with targetT2 := 0xAA, chime := 0x0A } .waitSingle) = true := by decide

/-- V-PACK-1: unassigned content carried, altitude bucketed, sentinel forced, counter wrapped. -/
theorem test_setChimeVolume_dirty : gives (cmd (loaded r6) 0x1200000300000000)
    (issued ⟨0xF7, 0xF5, 0xCE, 0x84, 0xFF, 0x5A, 0xC0, 0xA5, 0x00, 0x00, 0x00, 0x00, 0x09, 0x14, 0x03, 0x7E, 0x00⟩ .waitSingle) = true := by
  decide

/-- V-PBL-1. -/
theorem test_setPreBoil_on :
    gives (cmd (loaded r0) 0x1301000000000000) (issued { s1 with targetT2 := 0xAA, control := 0x0A } .waitSingle) = true := by decide

/-- V-ALT-9, both settings of `ALT_SET_ROUND`. -/
theorem test_setAltitude_2999 :
    gives (cmd (loaded r0) 0x14000BB700000000)
      (issued { s1 with targetT2 := 0xAA, altLo := 0x9A, altHi := 0x8B } .waitSingle) = true ∧
    gives (cmd { loaded r0 with cfg := { cfg with altSetRound := .nearest } } 0x14000BB700000000)
      (issued { s1 with targetT2 := 0xAA, altLo := 0xB8, altHi := 0x8B } .waitSingle) = true := by decide

/-- V-ALT-1. -/
theorem test_setAltitude_low :
    gives (cmd (loaded r0) 0x1400FF9C00000000) (issued { s1 with targetT2 := 0xAA } .waitSingle) = true := by decide

/-- V-CLK-2: the mode is kept. -/
theorem test_setClock_keeps_mode : gives (cmd (loaded r0) 0x15000000173B0000)
    (issued { s1 with targetT2 := 0xAA, clockMin := 0x3B, clockHour := 0x17 } .waitSingle) = true := by decide

/-- V-CLK-4, V-ERR-7: the hour is reported first, with or without a record. -/
theorem test_setClock_bad_hour : gives (cmd (loaded r0) 0x15000000183C0000) (result 0x02 0x01) = true ∧
    gives (cmd (fresh r0 17) 0x15000000183C0000) (result 0x02 0x01) = true := by decide

/-- V-CLK-1. -/
theorem test_setClockMode_analog : gives (cmd (loaded r0) 0x15010000062D0200)
    (issued { s1 with targetT2 := 0xAA, clockMin := 0x2D, clockHour := 0x06, clockMode := 0x02 } .waitSingle) = true := by decide

/-- V-CLK-6. -/
theorem test_setClockMode_unknown : gives (cmd (loaded r0) 0x15010000062D0300) (result 0x02 0x03) = true := by decide

/-- V-LNG-1. -/
theorem test_setLanguage_known :
    gives (cmd (loaded r0) 0x1600000001000000) (issued { s1 with targetT2 := 0xAA, language := 0x01 } .waitSingle) = true := by decide

/-- V-LNG-2. -/
theorem test_setLanguage_unknown : gives (cmd (loaded r0) 0x1600000005000000) (result 0x02 0x04) = true := by decide

/-- V-SCH-1: bit 3 of the counter byte is the submode. -/
theorem test_setSchedule_daily : gives (cmd (loaded r0) 0x170200A006000000)
    (issued ⟨0x08, 0x02, 0x00, 0x80, 0xAA, 0x00, 0xA0, 0x00, 0x00, 0x06, 0x1E, 0x0A, 0x01, 0x0F, 0x05, 0x00, 0x00⟩ .waitSingle) = true := by
  decide

/-- P3, its first write. -/
theorem test_setSchedule_begins_two_steps : gives (cmd (loaded r2) 0x170100B4071E0000) (fun t =>
    issued p3Step1 .waitStep1 t && decide (t.lat = p3Lat)) = true := by decide

/-- V-SCH-6. -/
theorem test_disableSchedule : gives (cmd (loaded r2) 0x1800000000000000) (issued p3Step1 .waitSingle) = true := by decide

/-- V-ERR-9. -/
theorem test_disableSchedule_absent : gives (cmd (fresh r0 17) 0x1800000000000000) (result 0x01 0x00) = true := by decide

/-- V-WP-1. -/
theorem test_wrAck_commits : gives (ev (busy r0 s1 .waitSingle) 1) (fun t =>
    result 0x00 0x00 t && decide (t.record = s1) && decide (t.ctr = 0x08)) = true := by decide

/-- V-WP-7. -/
theorem test_wrAck_step1 : gives (ev (busy r2 p3Step1 .waitStep1) 1) (fun t =>
    decide (t.phase = .settle) && decide (t.settleCnt = 301) && decide (t.record = p3Step1) && !t.resValid) = true := by decide

/-- V-WP-2, V-WP-12. -/
theorem test_wrFail_discards :
    gives (ev (busy r0 s1 .waitSingle) 2) (fun t => result 0x04 0x00 t && !t.recValid && decide (t.ctr = 0x07)) = true ∧
    gives (ev (busy p3Step1 r5 .waitStep3) 2) (fun t => result 0x05 0x83 t && !t.recValid) = true := by decide

/-- V-WP-14. -/
theorem test_invalidate_idle : gives (ev (loaded r0) 4) (fun t => !t.recValid && !t.resValid && decide (t.res = State.reset.res)) = true := by
  decide

/-- V-WP-11. -/
theorem test_invalidate_settle : gives (ev (settling 301) 4) (result 0x05 0x83) = true := by decide

/-- V-WP-9, P3: the second write. -/
theorem test_tick_issues_step3 :
    gives (ev (settling 1) 3) (fun t => issued r5 .waitStep3 t && decide (t.settleCnt = 0)) = true := by decide

/-- V-WP-8, its last tick. -/
theorem test_tick_counts : gives (ev (settling 2) 3) (fun t =>
    decide (t.phase = .settle) && decide (t.settleCnt = 1) && !t.txValid) = true := by decide

/-- V-WP-4: the reserved codes. -/
theorem test_reserved_events : ∀ c ∈ [0, 5, 6, 7], gives (ev (busy r0 s1 .waitSingle) c) (fun t =>
    decide (t.record = r0) && decide (t.phase = .waitSingle) && decide (t.txb = s1) && !t.resValid && t.recValid) = true := by decide

/-- V-ERR-1, V-ERR-6: an unknown opcode, with or without a record. -/
theorem test_illegal_opcode : gives (cmd (loaded r0) 0x9900000000000000) (result 0x07 0x01) = true ∧
    gives (cmd (fresh r0 17) 0x9900000000000000) (result 0x07 0x01) = true := by decide

/-- V-WP-5: a busy block holds the command. -/
theorem test_busy_holds : gives (cmd (busy r0 s1 .waitSingle) 0x1000006F00000000) (fun t =>
    decide (t.txb = s1) && decide (t.phase = .waitSingle) && !t.resValid && !t.txValid) = true := by decide

/-- A step from `State.reset` itself runs the word placed by withFetchWord (V-UNP-11). -/
theorem test_reset_runs_first_word : gives (step (State.reset.withFetchWord 64 0x0300000000000000)) (result 0x01 0x00) = true := by decide

/-! ### Witnesses: for every obligation with hypotheses, a state and operands that meet them, clause by clause and at the boundary
values of their ranges -/

/-- The ports of `s` with a command word presented. -/
def presentCmd (s : State) (w : CmdWord) : State := { s with ports := s.ports.presenting (.cmd w) }

/-- The ports of `s` with an event presented. -/
def presentEv (s : State) (c : EvCode) : State := { s with ports := s.ports.presenting (.ev c) }

theorem witness_DecodeOfEncodeIsTheInstruction :
    Instr.wf (.setTargetTemp 32767) = true ∧ Instr.wf (.setHoldTime (-32768)) = true ∧ Instr.wf (.setSchedule 3 255 255 (-1)) = true ∧
    Instr.wf .evReserved7 = true := by decide

theorem witness_EncodeOfDecodeIsThePortWord :
    decode (.cmd 0x17037FFFFFFF0000) = .ok (.setSchedule 3 255 255 32767) ∧ decode (.ev 7) = .ok .evReserved7 := by decide

theorem witness_LegalWordsAreExactlyTheTableRows :
    decodeCommand 0x1501000017FFFF00 = .ok (.setClockMode 23 255 255) ∧
    (∃ r ∈ cmdRows, r.matchesWord 0x1501000017FFFF00 = true) ∧ (∀ r ∈ cmdRows, r.matchesWord 0x1501000017FFFF01 = false) := by decide

/-- The hypotheses of an accepted illegal word, whose opcode is `opc`. -/
def AcceptedWord (s : State) (w : CmdWord) (opc : Byte) : Prop :=
  s.ports.reset = false ∧ s.ports.ev = none ∧ s.ports.cmd = some w ∧ s.phase = .idle ∧ w.extractLsb' 56 8 = opc

theorem witness_UnknownOpcodeRaisesIllegalCommand : ∀ opc ∈ ([0x00, 0x04, 0x0F, 0x19, 0xFF] : List Byte),
    opc ∉ ([0x01, 0x02, 0x03, 0x10, 0x11, 0x12, 0x13, 0x14, 0x15, 0x16, 0x17, 0x18] : List Byte) ∧
    ∃ w, AcceptedWord (presentCmd (loaded r0) w) w opc := by
  intro opc h
  refine ⟨by revert opc; decide, opc ++ (0 : BitVec 56), rfl, rfl, rfl, rfl, ?_⟩
  revert opc; decide

theorem witness_NonzeroReservedFieldRaisesIllegalCommand :
    AcceptedWord (presentCmd (loaded r0) 0x1000000501000000) 0x1000000501000000 0x10 ∧
    (∀ row ∈ cmdRows, row.matchesWord 0x1000000501000000 = false) ∧
    AcceptedWord (presentCmd (fresh r0 3) 0x1800000000000001) 0x1800000000000001 0x18 ∧
    (∀ row ∈ cmdRows, row.matchesWord 0x1800000000000001 = false) :=
  ⟨⟨rfl, rfl, rfl, rfl, by decide⟩, by decide, ⟨rfl, rfl, rfl, rfl, by decide⟩, by decide⟩

/-- An event, a command, with agents that go on and with agents that have nothing more. -/
theorem witness_StepRunsTheDecodedInstruction :
    let s := { presentEv (loaded r0) 4 with env := [(presentCmd (loaded r0) 0).ports] }
    let s' := presentCmd (loaded r0) 0x0300000000000000
    (s.ports.reset = false ∧ s.ports.ev = some 4 ∧ decode (.ev 4) = .ok .invalidate ∧ ∃ p ps, s.env = p :: ps) ∧
    (s'.ports.reset = false ∧ s'.ports.ev = none ∧ s'.ports.cmd = some 0x0300000000000000 ∧
      decode (.cmd 0x0300000000000000) = .ok .getState ∧ s'.env = []) :=
  ⟨⟨rfl, rfl, by decide, _, _, rfl⟩, rfl, rfl, rfl, by decide, rfl⟩

/-- V-WP-16: the acknowledgment of a write together with a command still presented in the next step. -/
theorem witness_EventIsTakenBeforeACommand :
    let w : CmdWord := 0x0300000000000000
    let p := (presentCmd (loaded r0) w).ports
    let s := { busy r0 s1 .waitSingle with ports := { p with ev := some 1 }, env := [p] }
    s.ports.reset = false ∧ s.ports.ev = some 1 ∧ s.ports.cmd = some w ∧ s.env = p :: [] ∧ p.reset = false ∧ p.ev = none ∧
    p.cmd = some w ∧ decodeCommand w = .ok .getState :=
  ⟨rfl, rfl, rfl, rfl, rfl, rfl, rfl, by decide⟩

theorem witness_BusyBlockHoldsCommands :
    (∀ p ∈ [Phase.waitSingle, .waitStep1, .settle, .waitStep3], (presentCmd (busy r0 s1 p) 0x0300000000000000).phase ≠ .idle) ∧
    (presentCmd (loaded r0) 0x0300000000000000).phase = .idle ∧ decodeCommand 0x0300000000000000 = .ok .getState ∧
    decodeCommand 0x0300000000000001 = .illegal .reservedField ∧
    gives (step (presentEv (busy r0 s1 .waitSingle) 2)) (fun t => decide (t.phase = .idle)) = true := by decide

theorem witness_ViewReportsEveryField :
    cfg.clockModeCodes.lookup 0x02 = some .analog ∧ cfg.clockModeCodes.lookup 0x03 = none ∧ (0x01 : Byte) ∈ cfg.langSet ∧
    (0x02 : Byte) ∉ cfg.langSet := by decide

theorem witness_ScheduleModeComesFromTwoBits :
    (r6.byte 0).getLsbD 3 = false ∧ ((r5.byte 0).getLsbD 3 = true ∧ (r5.byte 16).getLsbD 3 = true) ∧
    ((r2.byte 0).getLsbD 3 = true ∧ (r2.byte 16).getLsbD 3 = false) := by decide

theorem witness_DecodingFailsOnlyOnLength :
    (16 : Byte).toNat < 17 ∧ 17 ≤ (17 : Byte).toNat ∧ 17 ≤ (255 : Byte).toNat ∧ (List.replicate 17 (0 : Byte)).length = 17 := by decide

/-- The clauses of DECODE and LOAD. -/
theorem witness_DecodeCommandViewsTheBuffer :
    (busy r0 s1 .settle).phase ≠ .idle ∧ ((fresh r0 16).phase = .idle ∧ (fresh r0 16).ports.rxLen.toNat < 17) ∧
    ((fresh r0 17).phase = .idle ∧ 17 ≤ (fresh r0 17).ports.rxLen.toNat) := by decide

theorem witness_LoadReplacesTheCachedRecord :
    (busy r0 s1 .waitSingle).phase ≠ .idle ∧ ((fresh r0 16).phase = .idle ∧ (fresh r0 16).ports.rxLen.toNat < 17) ∧
    ((fresh r6 255).phase = .idle ∧ 17 ≤ (fresh r6 255).ports.rxLen.toNat) := by decide

theorem witness_GetStateViewsTheCachedRecord :
    (busy r0 s1 .waitSingle).phase ≠ .idle ∧ ((fresh r0 17).phase = .idle ∧ (fresh r0 17).recValid = false) ∧
    ((loaded r0).phase = .idle ∧ (loaded r0).recValid = true) := by decide

theorem witness_PackedBuffersAreCanonical :
    (let bs := List.replicate 17 (0 : Byte)
     17 ≤ bs.length ∧ 17 ≤ (bs ++ [0xFF]).length ∧ bs.take 17 = (bs ++ [0xFF]).take 17) ∧
    ((pack r6 0xFF id true).byte 0).getLsbD 3 = false := by decide

theorem witness_ReadsHaveNoSideEffects :
    (∃ t, exec .decode (fresh r6 17) = .next t) ∧ ∃ t, exec .getState (loaded r0) = .next t := ⟨⟨_, rfl⟩, _, rfl⟩

theorem witness_MemReadAndMemWriteAreLittleEndian :
    (16 : Fin 17) ≠ 0 ∧ (16 : Fin 17) ≠ (14 : Fin 16).castSucc ∧ (16 : Fin 17) ≠ (14 : Fin 16).succ := by decide

/-- PackWritesEachByte and DisabledSchedulesCarryTheSentinel: an update that leaves the schedule disabled, and one that enables it. -/
theorem witness_PackWritesEachByte :
    ((updDisable r2).byte 0).getLsbD 3 = false ∧ ((updEnable p3Lat r0).byte 0).getLsbD 3 = true ∧
    (15 : Fin 17) ∉ ([2, 3, 6, 8, 9, 16] : List (Fin 17)) := by decide

theorem witness_DisabledSchedulesCarryTheSentinel :
    (loaded r6).txValid = false ∧ gives (exec (.setChimeVolume 3) (loaded r6)) (fun t => t.txValid && !(t.txb.byte 0).getLsbD 3) = true ∧
    ((updEnable p3Lat r6).byte 0).getLsbD 3 = true := by decide

theorem witness_SubmodeReplacesOnlyBit3OfTheCounter :
    (7 : Fin 8) ≠ 3 ∧ ((pack r2 0x17 id false).byte 0).getLsbD 3 = true ∧ ((pack r0 0xFF id true).byte 0).getLsbD 3 = false := by decide

/-- NumericOperandsAreClamped and IssuedFieldsRoundTrip: the state, and operands on the bounds. -/
theorem witness_NumericOperandsAreClamped :
    (loaded r2).phase = .idle ∧ (loaded r2).recValid = true ∧ ((1 : BitVec 2) = 1 ∨ (1 : BitVec 2) = 2) ∧
    (23 : Byte).toNat ≤ 23 ∧ (59 : Byte).toNat ≤ 59 := by decide

theorem witness_CommandsCarryUntouchedBytes :
    (loaded r6).phase = .idle ∧ gives (exec (.setChimeVolume 3) (loaded r6)) (fun t => decide (t.phase ≠ .idle)) = true ∧
    (5 : Fin 17) ∉ commandedBytes (.setChimeVolume 3) ∧ (5 : Fin 17) ∉ ([2, 3, 6, 8, 9, 16] : List (Fin 17)) := by decide

theorem witness_IssuedFieldsRoundTrip :
    (loaded r0).phase = .idle ∧ (loaded r0).recValid = true ∧ (loaded r0).cfg.altSetRound = .floor ∧
    (∀ v ∈ ([0, 30, 3000] : List Int), 0 ≤ v ∧ v ≤ 3000 ∧ v % 30 = 0) ∧ (23 : Byte).toNat ≤ 23 ∧ (59 : Byte).toNat ≤ 59 ∧
    cfg.clockModeCodes.lookup 0x02 = some .analog ∧ (0x01 : Byte) ∈ (loaded r0).cfg.langSet ∧
    gives (exec (.setSchedule 2 23 59 200) (loaded r0)) (fun t => decide (t.phase = .waitSingle)) = true := by decide

/-- The three clauses of WritesOneField, for SET_TARGET_TEMP, SET_HOLD_TIME, SET_CHIME_VOLUME, SET_PRE_BOIL and SET_ALTITUDE. -/
theorem witness_WritesOneField :
    (busy r0 s1 .waitSingle).phase ≠ .idle ∧ ((fresh r0 17).phase = .idle ∧ (fresh r0 17).recValid = false) ∧
    ((loaded r0).phase = .idle ∧ (loaded r0).recValid = true) := by decide

theorem witness_SetClockChecksThenWritesTheClockBytes :
    (loaded r0).phase = .idle ∧ 23 < (24 : Byte).toNat ∧ (23 : Byte).toNat ≤ 23 ∧ 59 < (60 : Byte).toNat ∧ (59 : Byte).toNat ≤ 59 ∧
    (loaded r0).cfg.clockModeCodes.lookup 0x03 = none ∧ ((loaded r0).cfg.clockModeCodes.lookup 0x02).isSome = true ∧
    (busy r0 s1 .waitSingle).phase ≠ .idle ∧ (fresh r0 17).recValid = false ∧ (loaded r0).recValid = true := by decide

theorem witness_SetLanguageChecksThenWritesByte15 :
    (busy r0 s1 .waitSingle).phase ≠ .idle ∧ ((loaded r0).phase = .idle ∧ (0x02 : Byte) ∉ (loaded r0).cfg.langSet) ∧
    ((fresh r0 17).phase = .idle ∧ (0x01 : Byte) ∈ (fresh r0 17).cfg.langSet ∧ (fresh r0 17).recValid = false) ∧
    ((loaded r0).phase = .idle ∧ (0x01 : Byte) ∈ (loaded r0).cfg.langSet ∧ (loaded r0).recValid = true) := by decide

/-- No record and good operands, for each form with an operand check, and for one without. -/
theorem witness_NoRecordIsNotConnected :
    (fresh r0 17).phase = .idle ∧ (fresh r0 17).recValid = false ∧
    (∀ i ∈ [Instr.getState, .setAltitude 5, .setClock 23 59, .setClockMode 23 59 2, .setLanguage 1, .setSchedule 1 23 59 0,
        .setSchedule 0 255 255 0, .disableSchedule], i.isEvent = false ∧ i ≠ .decode ∧ i ≠ .load) ∧
    ((23 : Byte).toNat ≤ 23 ∧ (59 : Byte).toNat ≤ 59 ∧ ((fresh r0 17).cfg.clockModeCodes.lookup 2).isSome = true) ∧
    (1 : Byte) ∈ (fresh r0 17).cfg.langSet ∧ (1 : BitVec 2) ≠ 3 ∧ (0 : BitVec 2) ≠ 3 := by decide

theorem witness_CommandsLeaveTheCacheAlone :
    Instr.isEvent (.setSchedule 1 7 30 180) = false ∧ Instr.setSchedule 1 7 30 180 ≠ .load ∧
    gives (exec (.setSchedule 1 7 30 180) (loaded r2)) (fun t => decide (t.phase ≠ (loaded r2).phase)) = true ∧
    gives (exec .getState (loaded r2)) (fun t => decide (t.phase = (loaded r2).phase)) = true := by decide

theorem witness_SetScheduleIssuesOneWriteOrTwo :
    (busy r0 s1 .waitSingle).phase ≠ .idle ∧ (loaded r0).phase = .idle ∧ (loaded r0).recValid = true ∧
    ((fresh r0 17).phase = .idle ∧ (fresh r0 17).recValid = false) ∧ 23 < (24 : Byte).toNat ∧ (23 : Byte).toNat ≤ 23 ∧
    59 < (60 : Byte).toNat ∧ (59 : Byte).toNat ≤ 59 ∧ (loaded r0).record.schedMode = .off ∧ (loaded r2).record.schedMode.code = 2 ∧
    ((loaded r5).record.schedMode ≠ .off ∧ (loaded r5).record.schedMode.code ≠ 2) := by decide

theorem witness_DisableScheduleIsSetScheduleOff :
    (busy r0 s1 .waitSingle).phase ≠ .idle ∧ ((fresh r0 17).phase = .idle ∧ (fresh r0 17).recValid = false) ∧
    ((loaded r2).phase = .idle ∧ (loaded r2).recValid = true) := by decide

theorem witness_TwoStepChangeRunsToCompletion :
    (∀ s ∈ [loaded r2, loaded r5], s.cfg.Legal ∧ s.phase = .idle ∧ s.recValid = true) ∧
    ((1 : BitVec 2) = 1 ∧ (loaded r2).record.schedMode = .daily) ∧ ((2 : BitVec 2) = 2 ∧ (loaded r5).record.schedMode = .once) ∧
    (23 : Byte).toNat ≤ 23 ∧ (59 : Byte).toNat ≤ 59 ∧ fitsA16 (-32768) = true ∧ fitsA16 32767 = true ∧
    0 < (loaded r2).cfg.settleTicks ∧ (loaded r2).cfg.ctrFeedback = .logical := by decide

/-- The phases that the clauses about WR_ACK, WR_FAIL, INVALIDATE and TICK name. -/
theorem witness_WrAckCommits :
    (busy r0 s1 .waitSingle).phase = .waitSingle ∧ (busy p3Step1 r5 .waitStep3).phase = .waitStep3 ∧
    (busy r2 p3Step1 .waitStep1).phase = .waitStep1 ∧ (loaded r0).phase = .idle ∧ (settling 301).phase = .settle := by decide

theorem witness_WrFailAndInvalidateDiscard :
    (busy r0 s1 .waitSingle).phase = .waitSingle ∧ (busy r2 p3Step1 .waitStep1).phase = .waitStep1 ∧
    (settling 301).phase = .settle ∧ (busy p3Step1 r5 .waitStep3).phase = .waitStep3 ∧ (loaded r0).phase = .idle := by decide

theorem witness_TickCountsDownInSettle :
    (loaded r0).phase ≠ .settle ∧ ((settling 2).phase = .settle ∧ (settling 2).settleCnt - 1 ≠ 0) ∧
    ((settling 1).phase = .settle ∧ (settling 1).settleCnt - 1 = 0) := by decide

theorem witness_SettleTakesExactlyItsTicks :
    ((settling 1).phase = .settle ∧ (settling 1).settleCnt.toNat = 0 + 1) ∧
    ((settling 301).phase = .settle ∧ (settling 301).settleCnt.toNat = 300 + 1 ∧ 0 < 300 ∧ 300 ≤ 300) := by decide

theorem witness_ReservedEventsChangeNothing : ∀ c ∈ ([0, 5, 6, 7] : List EvCode),
    (presentEv (settling 1) c).ports.reset = false ∧ (presentEv (settling 1) c).ports.ev = some c := by decide

/-- One setter and its acknowledgment, in an enabled schedule (V-CTR-3). -/
def counted : State := (loaded r2).driven [encode (.setChimeVolume 5), encode .wrAck]

theorem witness_CounterLaw :
    counted.phase = .idle ∧ counted.recValid = true ∧ counted.cfg.ctrFeedback = .logical ∧ UndisturbedRun 2 counted ∧
    (∃ t, runSteps 2 counted = .next t) ∧ ackedWrites 2 counted = 1 ∧
    gives (runSteps 1 counted) (fun t => t.writeInFlight) = true := by
  refine ⟨rfl, rfl, rfl, ⟨by decide, fun t ht => ?_⟩, ⟨_, rfl⟩, by decide, by decide⟩
  injection ht with ht
  subst ht
  exact ⟨by decide, fun _ _ => trivial⟩

/-- A step that acknowledges a write in flight (V-WP-1), and one that does not (V-WP-4). -/
theorem witness_EveryUndisturbedStepKeepsTheCounterLaw :
    let a := presentEv (busy r0 s1 .waitSingle) 1
    let b := presentEv (busy r0 s1 .waitSingle) 3
    (a.cfg.ctrFeedback = .logical ∧ a.CarriesNextCounter ∧ a.undisturbed = true ∧ a.ackTaken = true ∧ ∃ t, step a = .next t) ∧
    (b.cfg.ctrFeedback = .logical ∧ b.CarriesNextCounter ∧ b.undisturbed = true ∧ b.ackTaken = false ∧ ∃ t, step b = .next t) :=
  ⟨⟨rfl, by decide, by decide, by decide, _, rfl⟩, rfl, by decide, by decide, by decide, _, rfl⟩

/-- The state of V-WP-1, with the wire feedback: its buffer is what SET_TARGET_TEMP built. -/
def wired : State := { busy r0 s1 .waitSingle with cfg := { cfg with ctrFeedback := .wire } }

theorem wired_inv : BlockInv wired where
  legal := by decide
  recordPresent _ := rfl
  txCanonical _ := ⟨by decide, by decide, by decide⟩
  txCarries _ := ⟨by decide, by decide, rfl, rfl⟩
  txCounter _ := by decide
  step1Disables := by decide
  settledOff := by decide
  step3Enables := by decide
  settleCounts := by decide
  latchedDomain := by decide
  wireCtr _ _ := rfl

theorem witness_WireFeedbackAdvancesByOneOnlyIfBit3Agrees :
    BlockInv wired ∧ wired.cfg.ctrFeedback = .wire ∧ wired.writeInFlight = true ∧ ∃ t, exec .wrAck wired = .next t :=
  ⟨wired_inv, rfl, rfl, _, rfl⟩

/-- A state in the settle delay has the invariant too. -/
theorem settling_inv : BlockInv (settling 1) where
  legal := by decide
  recordPresent _ := rfl
  txCanonical := nofun
  txCarries := nofun
  txCounter := nofun
  step1Disables := nofun
  settledOff := by decide
  step3Enables := nofun
  settleCounts _ := by decide
  latchedDomain _ := by decide
  wireCtr := nofun

theorem witness_StepKeepsBlockInv :
    (BlockInv (presentEv (settling 1) 3) ∧ ∃ t, step (presentEv (settling 1) 3) = .next t) ∧
    ∃ t, step wired = .next t :=
  ⟨⟨⟨settling_inv.legal, settling_inv.recordPresent, nofun, nofun, nofun, nofun, settling_inv.settledOff, nofun,
    settling_inv.settleCounts, settling_inv.latchedDomain, nofun⟩, _, rfl⟩, _, rfl⟩

theorem witness_ParametersNeverChange : ∃ t, step (presentEv (busy r0 s1 .waitSingle) 1) = .next t := ⟨_, rfl⟩

/-- A write in flight at the moment of reset. -/
theorem witness_ResetForgetsTheWriteInFlight :
    ({ busy r0 s1 .waitSingle with ports := { (fresh r0 17).ports with reset := true } }).ports.reset = true := rfl

/-- RecordChangesOnlyByLoadOrCommit: a step of each of its three kinds. -/
theorem witness_RecordChangesOnlyByLoadOrCommit :
    gives (step (presentCmd (loaded r2) 0x0300000000000000)) (fun t => decide (t.record = r2)) = true ∧
    gives (step (presentCmd { loaded r2 with ports := (fresh r0 17).ports } 0x0200000000000000)) (fun t => decide (t.record = r0)) = true ∧
    gives (step (presentEv (busy r0 s1 .waitSingle) 1)) (fun t => decide (t.record = s1)) = true := by decide

theorem witness_PresenceChangesOnlyByLoadOrDiscard :
    gives (step (presentCmd (fresh r0 17) 0x0200000000000000)) (fun t => decide (t.recValid ≠ (fresh r0 17).recValid)) = true ∧
    gives (step (presentEv (loaded r0) 4)) (fun t => decide (t.recValid ≠ (loaded r0).recValid)) = true := by decide

theorem witness_UncommandedContentChangesOnlyByLoad :
    BlockInv wired ∧ wired.ports.reset = false ∧ wired.take ≠ .run .load ∧ ∃ t, step wired = .next t :=
  ⟨wired_inv, rfl, by decide, _, rfl⟩

theorem witness_ResultsComeInIdleAndHold :
    gives (step (presentCmd (loaded r0) 0x1000006F00000000)) (fun t => !t.resValid) = true ∧
    gives (step (presentEv (busy r0 s1 .waitSingle) 1)) (fun t => t.resValid) = true := by decide

theorem witness_WritesNeverOverlap :
    gives (step (presentCmd (loaded r0) 0x1000006F00000000)) (fun t => t.txValid && t.writeInFlight && !(loaded r0).writeInFlight) = true ∧
    gives (step (presentEv (busy r0 s1 .waitSingle) 3)) (fun t => t.writeInFlight && (busy r0 s1 .waitSingle).writeInFlight) = true := by
  decide

/-- PhaseChangesAreTheTables: a step of each kind. -/
theorem witness_PhaseChangesAreTheTables :
    gives (step (presentCmd (loaded r0) 0x1000006F00000000)) (fun t => decide (t.phase ≠ .idle)) = true ∧
    gives (step (presentEv (settling 2) 2)) (fun t => decide (t.phase ≠ .settle)) = true ∧
    gives (step (presentEv (busy r0 s1 .waitSingle) 1)) (fun t => decide (t.phase ≠ .waitSingle)) = true ∧
    gives (step (presentEv (busy r2 p3Step1 .waitStep1) 1)) (fun t => decide (t.phase ≠ .waitStep1)) = true ∧
    gives (step (presentEv (settling 1) 3)) (fun t => decide (t.phase ≠ .settle)) = true := by decide

theorem witness_OnlyDecodeAndLoadSucceedWithoutARecord :
    (fresh r0 17).phase = .idle ∧ (fresh r0 17).recValid = false ∧
    gives (step (presentCmd (fresh r0 17) 0x0100000000000000)) (fun t => t.resValid && decide (t.res.code = 0x00)) = true ∧
    gives (step (presentCmd (fresh r0 17) 0x0200000000000000)) (fun t => t.resValid && decide (t.res.code = 0x00)) = true := by decide

/-- Two states after reset that differ in every register the spec gives no value there. -/
def scrambled : State :=
  { fresh r0 17 with record := r6, ctr := 0x5A, txb := r5, lat := p3Lat, settleCnt := 7 }

/-- A state without a record in IDLE has the invariant whatever its other registers hold. -/
theorem idle_inv (s : State) (hc : s.cfg.Legal) (hp : s.phase = .idle) (hr : s.recValid = false) : BlockInv s where
  legal := hc
  recordPresent h := absurd hp h
  txCanonical h := by simp [State.writeInFlight, hp] at h
  txCarries h := by simp [State.writeInFlight, hp] at h
  txCounter h := by simp [State.writeInFlight, hp] at h
  step1Disables h := by simp [hp] at h
  settledOff h := by simp [hp] at h
  step3Enables h := by simp [hp] at h
  settleCounts h := by simp [hp] at h
  latchedDomain h := by simp [State.latched, hp] at h
  wireCtr _ h := by simp [hr] at h

theorem witness_RegistersWithoutMeaningAreNeverRead :
    BlockInv (fresh r0 17) ∧ BlockInv scrambled ∧ SameMeaning (fresh r0 17) scrambled ∧ (fresh r0 17).record ≠ scrambled.record ∧
    (∃ t, step (fresh r0 17) = .next t) ∧ ∃ t, step scrambled = .next t :=
  ⟨idle_inv _ (by decide) rfl rfl, idle_inv _ (by decide) rfl rfl,
    ⟨rfl, rfl, rfl, rfl, rfl, rfl, rfl, rfl, rfl, nofun, nofun, nofun, nofun⟩, by decide, ⟨_, rfl⟩, _, rfl⟩

end Sys2Proof.Tests
end

section
/-! PROOFS. The step around an instruction (00_scope.md): what a step takes from the ports, that exec touches
neither the parameters nor the ports nor the agents' list, and the statements O7 and O49. -/

namespace Sys2Proof.Machine

/-! ### What a step takes from the ports -/

theorem State.take_of_event (s : State) (c : EvCode) (hr : s.ports.reset = false) (he : s.ports.ev = some c) :
    s.take = .ofDecoded (decode (.ev c)) := by
  simp [State.take, hr, he]

theorem State.take_of_command (s : State) (w : CmdWord) (hr : s.ports.reset = false) (he : s.ports.ev = none)
    (hc : s.ports.cmd = some w) : s.take = .ofDecoded (decode (.cmd w)) := by
  simp [State.take, hr, he, hc]

/-- A step that takes an instruction is that instruction's answer, moved on. -/
theorem step_of_take_run (s u : State) (i : Instr) (ht : s.take = .run i) (hx : exec i s.lowerStrobes = .next u) :
    step s = .next u.advance := by
  simp [step, ht, hx, mapNext]

/-! ### How the agents move on (log entry 2) -/

theorem State.advance_of_env_nil (s : State) (h : s.env = []) : s.advance = { s with ports := s.ports.silent } := by
  unfold State.advance; rw [h]

theorem State.advance_of_env_cons (s : State) (p : Ports) (ps : List Ports) (h : s.env = p :: ps) :
    s.advance = { s with ports := p, env := ps } := by
  unfold State.advance; rw [h]

/-! ### What lies outside the block (R4, R9) -/

/-- Every effect is made of register updates: the parameters, the ports and the agents' list are outside its reach. -/
theorem Effect.keeps_surroundings {i : Instr} {s t : State} (h : Effect i s t) :
    t.cfg = s.cfg ∧ t.ports = s.ports ∧ t.env = s.env := by
  cases h <;> exact ⟨rfl, rfl, rfl⟩

@[simp] theorem State.rejectIllegal_cfg (s : State) (why : Illegal) : (s.rejectIllegal why).cfg = s.cfg := by
  obtain ⟨-, h⟩ | ⟨-, h⟩ := rejectIllegal_cases s why
  · rw [h, State.raise_cfg]
  · rw [h]

/-- Settles O7: the port word fixes what the step takes, and `exec` leaves the ports and the agents' list to `advance`. -/
theorem stepRunsTheDecodedInstruction : Obligations.StepRunsTheDecodedInstruction := by
  intro s i hr hword
  have htake : s.take = .run i := by
    obtain ⟨c, he, hd⟩ | ⟨he, w, hc, hd⟩ := hword
    · rw [s.take_of_event c hr he, hd, Taken.ofDecoded]
    · rw [s.take_of_command w hr he hc, hd, Taken.ofDecoded]
  obtain ⟨t, hx⟩ := exec_answers_next i s.lowerStrobes
  obtain ⟨-, hports, henv⟩ := (exec_effect i _ t hx).keeps_surroundings
  rw [State.lowerStrobes_ports] at hports
  rw [State.lowerStrobes_env] at henv
  refine ⟨t, hx, step_of_take_run s t i htake hx, hports, henv, fun p ps h => ?_, fun h => ?_⟩
  · exact t.advance_of_env_cons p ps (henv.trans h)
  · rw [t.advance_of_env_nil (henv.trans h), hports, Ports.silent]

/-- Settles O49: each of the four things a step can be (reset, nothing, an illegal word, an instruction)
keeps the parameters. -/
theorem parametersNeverChange : Obligations.ParametersNeverChange := by
  intro s t h
  obtain ⟨-, rfl⟩ | ⟨-, rfl⟩ | ⟨why, -, rfl⟩ | ⟨i, u, -, hx, rfl⟩ := step_cases s t h
  · rw [State.advance_cfg, State.resetBlock_cfg]
  · rw [State.advance_cfg, State.lowerStrobes_cfg]
  · rw [State.advance_cfg, State.rejectIllegal_cfg, State.lowerStrobes_cfg]
  · obtain ⟨hcfg, -, -⟩ := (exec_effect i _ u hx).keeps_surroundings
    rw [State.advance_cfg, hcfg, State.lowerStrobes_cfg]

end Sys2Proof.Machine
end

section
/-! PROOFS. The invariant of the block (10_state.md, 44_write_protocol.md): the reset state has it, every effect keeps it,
so every step does. The statements O47, O48 and O50. -/

namespace Sys2Proof.Machine

/-! ### States that have the invariant -/

/-- The invariant reads no output, no port and nothing of what the agents present. -/
theorem BlockInv.of_outputs {s : State} (h : BlockInv s) (res : Res) (rv tv : Bool) (vp : Option View) (p : Ports)
    (e : List Ports) :
    BlockInv { s with res := res, resValid := rv, txValid := tv, viewPort := vp, ports := p, env := e } where
  legal := h.legal
  recordPresent := h.recordPresent
  txCanonical := h.txCanonical
  txCarries := h.txCarries
  txCounter := h.txCounter
  step1Disables := h.step1Disables
  settledOff := h.settledOff
  step3Enables := h.step3Enables
  settleCounts := h.settleCounts
  latchedDomain := h.latchedDomain
  wireCtr := h.wireCtr

theorem BlockInv.lowerStrobes {s : State} (h : BlockInv s) : BlockInv s.lowerStrobes := h.of_outputs ..
theorem BlockInv.raise {s : State} (h : BlockInv s) (e : ResultCode) (info : Byte) : BlockInv (s.raise e info) :=
  h.of_outputs ..
theorem BlockInv.completeOk {s : State} (h : BlockInv s) (v : View) : BlockInv (s.completeOk v) := h.of_outputs ..

theorem BlockInv.advance {s : State} (h : BlockInv s) : BlockInv s.advance := by
  cases he : s.env with
  | nil => rw [s.advance_of_env_nil he]; exact h.of_outputs ..
  | cons p ps => rw [s.advance_of_env_cons p ps he]; exact h.of_outputs ..

/-- In IDLE the invariant asks nothing but legal parameters and the counter of WIRE feedback. -/
theorem BlockInv.of_idle {s : State} (hl : s.cfg.Legal) (hp : s.phase = .idle)
    (hw : s.cfg.ctrFeedback = .wire → s.recValid = true → s.ctr = s.record.counter) : BlockInv s where
  legal := hl
  recordPresent h := absurd hp h
  txCanonical h := by simp [State.writeInFlight, hp] at h
  txCarries h := by simp [State.writeInFlight, hp] at h
  txCounter h := by simp [State.writeInFlight, hp] at h
  step1Disables h := by simp [hp] at h
  settledOff h := by simp [hp] at h
  step3Enables h := by simp [hp] at h
  settleCounts h := by simp [hp] at h
  latchedDomain h := by simp [State.latched, hp] at h
  wireCtr := hw

/-- In IDLE without a cached record it asks only for legal parameters. -/
theorem BlockInv.of_idle_absent {s : State} (hl : s.cfg.Legal) (hp : s.phase = .idle) (hr : s.recValid = false) :
    BlockInv s :=
  .of_idle hl hp fun _ h => absurd h (by simp [hr])

/-! ### Writes and their acknowledgments -/

/-- A buffer packed from the present record may be issued in any waiting phase. Step (1) wants it disabled and a latched
request in its domain; step (3) wants it enabled and the record disabled (R127, R186). -/
theorem BlockInv.issueWrite_pack {s : State} {upd : Record → Record} {sm : Bool} {p : Phase} (hl : s.cfg.Legal)
    (hr : s.recValid = true) (hw : s.cfg.ctrFeedback = .wire → s.recValid = true → s.ctr = s.record.counter)
    (hu : (upd s.record).SameUncommanded s.record) (hsettle : p ≠ .settle)
    (h1 : p = .waitStep1 → (upd s.record).schedEnabled = false ∧ s.lat.InDomain)
    (h3 : p = .waitStep3 → s.record.schedEnabled = false ∧ (upd s.record).schedEnabled = true) :
    BlockInv (s.issueWrite (pack s.record s.ctr upd sm) p) where
  legal := hl
  recordPresent _ := hr
  txCanonical _ := pack_canonical ..
  txCarries _ := pack_sameUncommanded _ _ _ _ hu
  txCounter _ := pack_counter_self ..
  step1Disables h := (pack_schedEnabled ..).trans (h1 h).1
  settledOff
    | .inl h => absurd h hsettle
    | .inr h => (h3 h).1
  step3Enables h := (pack_schedEnabled ..).trans (h3 h).2
  settleCounts h := absurd h hsettle
  latchedDomain h := by
    have hp : p = .waitStep1 := by cases p <;> simp_all [State.latched]
    obtain ⟨hour, minute, t2⟩ := (h1 hp).2
    exact ⟨hour, minute, t2⟩
  wireCtr := hw

/-- What WIRE feedback puts in `CTR` is byte 16 of the record committed with it (R215). -/
theorem commit_wireCtr (s : State) (h : s.cfg.ctrFeedback = .wire) : s.commit.ctr = s.commit.record.counter := by
  rw [State.commit_ctr, State.commit_record, h, nextCtr]

/-- The settle counter is wide enough for legal parameters (R18, R214). -/
theorem startSettle_settleCnt_toNat {s : State} (hl : s.cfg.Legal) :
    s.startSettle.settleCnt.toNat = s.cfg.settleTicks := by
  obtain ⟨-, hmax⟩ := hl
  rw [State.startSettle_settleCnt, BitVec.toNat_ofNat, Nat.mod_eq_of_lt (by omega)]

/-- The acknowledgment of step (1) begins the settle delay over the disabled record (R186, R211). -/
theorem BlockInv.commit_startSettle {s : State} (h : BlockInv s) (hp : s.phase = .waitStep1) :
    BlockInv s.commit.startSettle where
  legal := h.legal
  recordPresent _ := h.recordPresent (by simp [hp])
  txCanonical := nofun
  txCarries := nofun
  txCounter := nofun
  step1Disables := nofun
  settledOff _ := h.step1Disables hp
  step3Enables := nofun
  settleCounts _ := by
    rw [startSettle_settleCnt_toNat (s := s.commit) h.legal]
    exact ⟨h.legal.1, le_rfl⟩
  latchedDomain _ := h.latchedDomain (by simp [State.latched, hp])
  wireCtr hw _ := commit_wireCtr s hw

/-- A tick that is not the last leaves a positive count (R214). -/
theorem BlockInv.countDown {s : State} (h : BlockInv s) (hp : s.phase = .settle) (hn : s.settleCnt - 1 ≠ 0) :
    BlockInv { s with settleCnt := s.settleCnt - 1 } where
  legal := h.legal
  recordPresent := h.recordPresent
  txCanonical := h.txCanonical
  txCarries := h.txCarries
  txCounter := h.txCounter
  step1Disables := h.step1Disables
  settledOff := h.settledOff
  step3Enables := h.step3Enables
  settleCounts _ := by
    have hle := h.settleCounts hp
    show 1 ≤ (s.settleCnt - 1).toNat ∧ (s.settleCnt - 1).toNat ≤ s.cfg.settleTicks
    bv_omega
  latchedDomain := h.latchedDomain
  wireCtr := h.wireCtr

/-! ### Every effect, every step -/

/-- Every effect keeps the invariant. -/
theorem BlockInv.effect {i : Instr} {s t : State} (h : BlockInv s) (e : Effect i s t) : BlockInv t := by
  cases e with
  | held => exact h
  | ignored => exact h
  | rejected => exact h.raise _ _
  | read => exact h.completeOk _
  | loaded _ hp => exact .of_idle h.legal hp fun _ _ => rfl
  | loadFailed _ hp => exact .of_idle_absent h.legal hp rfl
  | discarded _ _ hp => exact .of_idle_absent h.legal hp rfl
  | lost => exact .of_idle_absent h.legal rfl rfl
  | wrote _ _ upd sm hp hi hr hu => exact .issueWrite_pack h.legal hr h.wireCtr hu nofun nofun nofun
  | began k hour minute v _ l hp hr hs hl =>
    exact .issueWrite_pack (s := { s with lat := l }) h.legal hr h.wireCtr (updDisable_sameUncommanded _) nofun
      (fun _ => ⟨updDisable_schedEnabled _, hl⟩) nofun
  | committed => exact .of_idle h.legal rfl fun hw _ => commit_wireCtr s hw
  | settling _ hp => exact h.commit_startSettle hp
  | counted _ hp hn => exact h.countDown hp hn
  | expired _ hp hn =>
    exact .issueWrite_pack (s := { s with settleCnt := s.settleCnt - 1 }) h.legal (h.recordPresent (by simp [hp]))
      h.wireCtr (updEnable_sameUncommanded _ _) nofun nofun
      fun _ => ⟨h.settledOff (.inl hp), updEnable_schedEnabled _ _⟩

theorem BlockInv.rejectIllegal {s : State} (h : BlockInv s) (why : Illegal) : BlockInv (s.rejectIllegal why) := by
  obtain ⟨-, he⟩ | ⟨-, he⟩ := rejectIllegal_cases s why
  · rw [he]; exact h.raise _ _
  · rw [he]; exact h

/-- Settles O48: a reset leaves an idle block without a record, a step without an instruction changes outputs alone, and
every effect of an instruction keeps the invariant. -/
theorem stepKeepsBlockInv : Obligations.StepKeepsBlockInv := by
  intro s t h hstep
  obtain ⟨-, rfl⟩ | ⟨-, rfl⟩ | ⟨why, -, rfl⟩ | ⟨i, u, -, hx, rfl⟩ := step_cases s t hstep
  · exact (BlockInv.of_idle_absent (s := s.resetBlock) h.legal rfl rfl).advance
  · exact h.lowerStrobes.advance
  · exact (h.lowerStrobes.rejectIllegal why).advance
  · exact (h.lowerStrobes.effect (exec_effect i _ u hx)).advance

/-- Settles O47: the block is idle without a record after reset, and the default parameters are legal. -/
theorem resetMeetsBlockInv : Obligations.ResetMeetsBlockInv :=
  BlockInv.of_idle_absent (by decide) rfl rfl

/-- Settles O50: each value is read off `State.reset`. -/
theorem resetLeavesTheGivenValues : Obligations.ResetLeavesTheGivenValues :=
  ⟨rfl, rfl, rfl, rfl, rfl, rfl, rfl⟩

end Sys2Proof.Machine
end

section
/-! PROOFS. What a step without reset can do (10_state.md, 44_write_protocol.md), said once over `Effect`, and what each effect
does to the record, its presence, the results and the phase. The statements O52, O53, O54, O55 and O57. -/

namespace Sys2Proof.Machine

/-! ### A step without reset -/

theorem Taken.ofDecoded_ne_reset (d : Decoded) : Taken.ofDecoded d ≠ .reset := by cases d <;> nofun

theorem State.take_ne_reset (s : State) (h : s.ports.reset = false) : s.take ≠ .reset := by
  unfold State.take
  rw [h, if_neg Bool.false_ne_true]
  split
  · exact Taken.ofDecoded_ne_reset _
  · split
    · exact Taken.ofDecoded_ne_reset _
    · nofun

/-- A step without reset lowers the strobes and then does nothing, rejects an illegal word, or has an instruction's effect. -/
theorem step_cases_of_no_reset {s t : State} (hr : s.ports.reset = false) (h : step s = .next t) :
    t = s.lowerStrobes.advance ∨
    (∃ why : Illegal, s.phase = .idle ∧ t = (s.lowerStrobes.raise .illegalCommand why.info).advance) ∨
    ∃ i u, s.take = .run i ∧ Effect i s.lowerStrobes u ∧ t = u.advance := by
  obtain ⟨ht, -⟩ | ⟨-, rfl⟩ | ⟨why, -, rfl⟩ | ⟨i, u, ht, hx, rfl⟩ := step_cases s t h
  · exact absurd ht (s.take_ne_reset hr)
  · exact .inl rfl
  · obtain ⟨hp, he⟩ | ⟨-, he⟩ := rejectIllegal_cases s.lowerStrobes why
    · exact .inr (.inl ⟨why, hp, by rw [he]⟩)
    · exact .inl (by rw [he])
  · exact .inr (.inr ⟨i, u, ht, exec_effect i _ u hx, rfl⟩)

/-! ### What an effect does to each register -/

theorem State.writeInFlight_of_waiting {s : State} (h : s.phase = .waitSingle ∨ s.phase = .waitStep1 ∨ s.phase = .waitStep3) :
    s.writeInFlight = true := by
  obtain h | h | h := h <;> simp [State.writeInFlight, h]

/-- `REC` and `CTR` are written by a successful LOAD and by a commit (R10, R13). -/
theorem Effect.record_ctr_cases {i : Instr} {s t : State} (e : Effect i s t) :
    (t.record = s.record ∧ t.ctr = s.ctr) ∨
    (i = .load ∧ s.phase = .idle ∧ 17 ≤ s.ports.rxLen.toNat ∧ t.record = s.ports.rxBuf ∧ t.ctr = s.ports.rxBuf.byte 16) ∨
    (i = .wrAck ∧ s.writeInFlight = true ∧ t.record = s.txb ∧ t.ctr = nextCtr s.cfg.ctrFeedback s.ctr s.txb) := by
  cases e with
  | loaded _ hp hl => exact .inr (.inl ⟨rfl, hp, le_of_lengthOk _ hl, rfl, rfl⟩)
  | committed _ hp =>
    have hw : s.writeInFlight = true := State.writeInFlight_of_waiting (hp.imp_right .inr)
    exact .inr (.inr ⟨rfl, hw, rfl, rfl⟩)
  | settling _ hp => exact .inr (.inr ⟨rfl, State.writeInFlight_of_waiting (.inr (.inl hp)), rfl, rfl⟩)
  | _ => exact .inl ⟨rfl, rfl⟩

/-- `rec_valid` is set by a successful LOAD and cleared by a failed one, WR_FAIL and INVALIDATE (R12, R216). -/
theorem Effect.recValid_cases {i : Instr} {s t : State} (e : Effect i s t) :
    t.recValid = s.recValid ∨
    (t.recValid = true ∧ i = .load ∧ s.phase = .idle ∧ 17 ≤ s.ports.rxLen.toNat) ∨
    (t.recValid = false ∧ (i = .wrFail ∨ i = .invalidate ∨ (i = .load ∧ s.phase = .idle ∧ s.ports.rxLen.toNat < 17))) := by
  cases e with
  | loaded _ hp hl => exact .inr (.inl ⟨rfl, rfl, hp, le_of_lengthOk _ hl⟩)
  | loadFailed _ hp hl => exact .inr (.inr ⟨rfl, .inr (.inr ⟨rfl, hp, lt_of_not_lengthOk _ hl⟩)⟩)
  | lost _ _ _ _ _ hi => exact .inr (.inr ⟨rfl, hi.imp_right .inl⟩)
  | discarded _ _ _ hi => exact .inr (.inr ⟨rfl, hi.imp_right .inl⟩)
  | _ => exact .inl rfl

/-- The outputs agree with the phase as the spec has it: `RES` is the given one unless there is a result, a result comes in
IDLE, and it brings a view exactly with OK (R19, R70). -/
structure State.ReportsAfter (t : State) (res : Res) : Prop where
  holds : t.resValid = false → t.res = res ∧ t.viewPort = none
  inIdle : t.resValid = true → t.phase = .idle
  viewWithOk : t.resValid = true → (t.viewPort.isSome = true ↔ t.res.code = 0x00)

/-- A state in which no result is given reports nothing. -/
theorem State.ReportsAfter.of_quiet {t : State} (hr : t.resValid = false) (hv : t.viewPort = none) : t.ReportsAfter t.res where
  holds _ := ⟨rfl, hv⟩
  inIdle h := absurd (hr.symm.trans h) (by decide)
  viewWithOk h := absurd (hr.symm.trans h) (by decide)

/-- OK is the only result whose code is zero (R240). -/
theorem ResultCode.code_eq_zero_iff (e : ResultCode) : e.code = 0x00 ↔ e = .ok := by cases e <;> decide

theorem State.ReportsAfter.raise {s : State} (hp : s.phase = .idle) {e : ResultCode} (he : e ≠ .ok) (info : Byte) (res : Res) :
    (s.raise e info).ReportsAfter res where
  holds := nofun
  inIdle _ := hp
  viewWithOk _ := iff_of_false nofun fun h => he (e.code_eq_zero_iff.1 h)

theorem State.ReportsAfter.completeOk {s : State} (hp : s.phase = .idle) (v : View) (res : Res) :
    (s.completeOk v).ReportsAfter res where
  holds := nofun
  inIdle _ := hp
  viewWithOk _ := iff_of_true rfl rfl

theorem State.ReportsAfter.advance {t : State} {res : Res} (h : t.ReportsAfter res) : t.advance.ReportsAfter res where
  holds := by simpa using h.holds
  inIdle := by simpa using h.inIdle
  viewWithOk := by simpa using h.viewWithOk

/-- From lowered strobes every effect reports as the spec has it. -/
theorem Effect.reportsAfter {i : Instr} {s t : State} (e : Effect i s t) (hr : s.resValid = false) (hv : s.viewPort = none) :
    t.ReportsAfter s.res := by
  cases e with
  | rejected _ _ _ _ hp _ he => exact .raise hp he ..
  | read _ _ _ hp => exact .completeOk hp ..
  | loaded _ hp => exact .completeOk (s := s.fill s.ports.rxBuf) hp ..
  | loadFailed _ hp => exact .raise (s := s.discard) (e := .decodeError) hp (by decide) ..
  | committed => exact .completeOk rfl ..
  | lost _ _ _ _ _ _ he => exact .raise rfl he ..
  | held => exact .of_quiet hr hv
  | wrote => exact .of_quiet (t := s.writeOne _ _) hr hv
  | began => exact .of_quiet (t := s.beginTwoStep _) hr hv
  | settling => exact .of_quiet (t := s.commit.startSettle) hr hv
  | discarded => exact .of_quiet (t := s.discard) hr hv
  | counted => exact .of_quiet (t := { s with settleCnt := _ }) hr hv
  | expired => exact .of_quiet (t := State.issueStep3 _) hr hv
  | ignored => exact .of_quiet hr hv

/-- The changes of phase an effect can make: the cells of the table (R210). -/
theorem Effect.phase_cases {i : Instr} {s t : State} (e : Effect i s t) :
    t.phase = s.phase ∨
    (s.phase = .idle ∧ (t.phase = .waitSingle ∨ t.phase = .waitStep1) ∧ i.isEvent = false) ∨
    (s.phase ≠ .idle ∧ t.phase = .idle ∧ (i = .wrFail ∨ i = .invalidate)) ∨
    ((s.phase = .waitSingle ∨ s.phase = .waitStep3) ∧ t.phase = .idle ∧ i = .wrAck) ∨
    (s.phase = .waitStep1 ∧ t.phase = .settle ∧ i = .wrAck) ∨
    (s.phase = .settle ∧ t.phase = .waitStep3 ∧ i = .tick ∧ s.settleCnt = 1) := by
  cases e with
  | wrote _ _ _ _ hp hi => exact .inr (.inl ⟨hp, .inl rfl, isEvent_of_isSetter i hi⟩)
  | began _ _ _ _ _ _ hp => exact .inr (.inl ⟨hp, .inr rfl, rfl⟩)
  | lost _ _ _ _ hp hi => exact .inr (.inr (.inl ⟨hp, rfl, hi⟩))
  | committed _ hp => exact .inr (.inr (.inr (.inl ⟨hp, rfl, rfl⟩)))
  | settling _ hp => exact .inr (.inr (.inr (.inr (.inl ⟨hp, rfl, rfl⟩))))
  | expired _ hp hn =>
    have hlast : s.settleCnt = 1 := by bv_omega
    exact .inr (.inr (.inr (.inr (.inr ⟨hp, rfl, rfl, hlast⟩))))
  | _ => exact .inl rfl

/-! ### The statements -/

/-- Settles O52: only an effect touches the record, and `Effect.record_ctr_cases` says which do. -/
theorem recordChangesOnlyByLoadOrCommit : Obligations.RecordChangesOnlyByLoadOrCommit := by
  intro s t hr h
  obtain rfl | ⟨why, -, rfl⟩ | ⟨i, u, htake, he, rfl⟩ := step_cases_of_no_reset hr h
  · simp
  · simp
  · simpa [htake] using he.record_ctr_cases

/-- Settles O53: only an effect touches `rec_valid`, and `Effect.recValid_cases` says which do. -/
theorem presenceChangesOnlyByLoadOrDiscard : Obligations.PresenceChangesOnlyByLoadOrDiscard := by
  intro s t hr h hne
  obtain rfl | ⟨why, -, rfl⟩ | ⟨i, u, htake, he, rfl⟩ := step_cases_of_no_reset hr h
  · simp at hne
  · simp at hne
  · have hcases := he.recValid_cases.resolve_left (by simpa using hne)
    simpa [htake] using hcases

/-- Settles O57: only an effect touches the phase, and `Effect.phase_cases` says which do. -/
theorem phaseChangesAreTheTables : Obligations.PhaseChangesAreTheTables := by
  intro s t hr h hne
  obtain rfl | ⟨why, -, rfl⟩ | ⟨i, u, htake, he, rfl⟩ := step_cases_of_no_reset hr h
  · simp at hne
  · simp at hne
  · have hcases := he.phase_cases.resolve_left (by simpa using hne)
    simpa [htake] using hcases

/-- Settles O55: lowered strobes report nothing, an illegal word is rejected in IDLE, and effects report as they should. -/
theorem resultsComeInIdleAndHold : Obligations.ResultsComeInIdleAndHold := by
  intro s t hr h
  have hreport : t.ReportsAfter s.res := by
    obtain rfl | ⟨why, hp, rfl⟩ | ⟨i, u, -, he, rfl⟩ := step_cases_of_no_reset hr h
    · exact (State.ReportsAfter.of_quiet (t := s.lowerStrobes) rfl rfl).advance
    · exact (State.ReportsAfter.raise (s := s.lowerStrobes) hp (by decide) _ _).advance
    · exact (he.reportsAfter rfl rfl).advance
  exact ⟨hreport.holds, fun hv => ⟨hreport.inIdle hv, hreport.viewWithOk hv⟩⟩

/-- The units flag is among the bits of CONTROL that no command changes (R157). -/
theorem unitsCelsius_eq_of_control {t r : Record} (h : t.control &&& 0xF7 = r.control &&& 0xF7) :
    t.unitsCelsius = r.unitsCelsius := by
  have hbit : ∀ b : Byte, bitOf b 1 = bitOf (b &&& 0xF7) 1 := by decide
  unfold Record.unitsCelsius
  rw [hbit t.control, h, ← hbit]

/-- Without reset and without LOAD the record keeps what no command changes: it stays or becomes the buffer in flight,
which carries that content (R24). -/
theorem step_sameUncommanded {s t : State} (hinv : BlockInv s) (hr : s.ports.reset = false) (hl : s.take ≠ .run .load)
    (h : step s = .next t) : t.record.SameUncommanded s.record := by
  obtain ⟨hrec, -⟩ | ⟨htake, -⟩ | ⟨-, hw, hrec, -⟩ := recordChangesOnlyByLoadOrCommit s t hr h
  · rw [hrec]; exact .refl _
  · exact absurd htake hl
  · rw [hrec]; exact hinv.txCarries hw

/-- Settles O54: what no command changes is these bytes and bits, the units flag among them. -/
theorem uncommandedContentChangesOnlyByLoad : Obligations.UncommandedContentChangesOnlyByLoad := by
  intro s t hinv hr hl h
  obtain ⟨hstatus, hcontrol, hbyte5, hbyte7⟩ := step_sameUncommanded hinv hr hl h
  exact ⟨hbyte5, hbyte7, hstatus, hcontrol, unitsCelsius_eq_of_control hcontrol⟩

end Sys2Proof.Machine
end

section
/-! PROOFS. The bytes a command carries (10_state.md R24, 41_pack_and_counter.md R121): what pack leaves alone, what each command's
update leaves alone, and the statement O25. -/

namespace Sys2Proof.Machine

/-! ### One byte at a time -/

theorem Record.byte_ofBytes (f : Fin 17 → Byte) (j : Fin 17) : (Record.ofBytes f).byte j = f j := by
  fin_cases j <;> rfl

theorem Record.setByte_eq_ofBytes (r : Record) (i : Fin 17) (b : Byte) :
    r.setByte i b = .ofBytes fun j => if j = i then b else r.byte j := by
  fin_cases i <;> rfl

theorem Record.byte_setByte_of_ne (r : Record) {i j : Fin 17} (h : j ≠ i) (b : Byte) : (r.setByte i b).byte j = r.byte j := by
  rw [setByte_eq_ofBytes, byte_ofBytes, if_neg h]

/-- The bytes every pack writes besides the command's own: the altitude, the sentinel bytes, the counter (R121). -/
def alwaysPacked : List (Fin 17) := [2, 3, 6, 8, 9, 16]

/-- Every other byte of a packed buffer is the update's: the offsets in `alwaysPacked` are excluded, and each of the rest
has its own `pack_` lemma. -/
theorem pack_byte (r : Record) (c : Byte) (upd : Record → Record) (sm : Bool) {j : Fin 17} (hj : j ∉ alwaysPacked) :
    (pack r c upd sm).byte j = (upd r).byte j := by
  fin_cases j <;> simp [alwaysPacked, Record.byte] at hj ⊢

/-! ### Updates that leave bytes alone -/

/-- From `r` to `t` no byte outside `own` changes. -/
def LeavesAlone (own : List (Fin 17)) (r t : Record) : Prop := ∀ j ∉ own, t.byte j = r.byte j

section leavesAlone
variable {own : List (Fin 17)} {r t : Record}

theorem LeavesAlone.refl : LeavesAlone own r r := fun _ _ => rfl

theorem LeavesAlone.setByte (h : LeavesAlone own r t) (i : Fin 17) (b : Byte)
    (hi : i ∈ own := by simp [commandedBytes]) : LeavesAlone own r (t.setByte i b) := fun j hj =>
  (t.byte_setByte_of_ne (ne_of_mem_of_not_mem hi hj).symm b).trans (h j hj)

theorem LeavesAlone.mono {own' : List (Fin 17)} (h : LeavesAlone own r t) (hs : own ⊆ own') : LeavesAlone own' r t :=
  fun j hj => h j fun hm => hj (hs hm)

end leavesAlone

theorem updDisable_leavesAlone (r : Record) : LeavesAlone [0] r (updDisable r) :=
  LeavesAlone.refl.setByte 0 _

theorem updEnable_leavesAlone (l : Latched) (r : Record) : LeavesAlone [0, 6, 8, 9] r (updEnable l r) :=
  (((LeavesAlone.refl.setByte 0 (r.status ||| 0x08)).setByte 6 l.t2).setByte 8 l.minute).setByte 9 l.hour

theorem withAltitude_leavesAlone (r : Record) (a : BitVec 15) : LeavesAlone [2, 3] r (r.withAltitude a) :=
  (LeavesAlone.refl.setByte 2 _).setByte 3 _

/-! ### Commands that carry the rest -/

/-- If the block is busy in `t`, the buffer it issued carries from the record of `s` every byte outside `own` that not every
pack writes (R24). -/
def CarriesOutside (own : List (Fin 17)) (s t : State) : Prop :=
  t.phase ≠ .idle → ∀ j ∉ own, j ∉ alwaysPacked → t.txb.byte j = s.record.byte j

section carries
variable {own : List (Fin 17)} {s u : State}

theorem CarriesOutside.of_idle (h : u.phase = .idle) : CarriesOutside own s u := fun hp => absurd h hp

theorem CarriesOutside.of_pack {upd : Record → Record} {sm : Bool} (ht : u.txb = pack s.record s.ctr upd sm)
    (hu : LeavesAlone own s.record (upd s.record)) : CarriesOutside own s u := by
  intro _ j hown hpack
  rw [ht, pack_byte _ _ _ _ hpack, hu j hown]

theorem CarriesOutside.checkRecord (hp : s.phase = .idle) (h : CarriesOutside own s u) :
    CarriesOutside own s (s.checkRecord u) := by
  unfold State.checkRecord
  split
  · exact h
  · exact .of_idle hp

theorem CarriesOutside.checkOperand (hp : s.phase = .idle) (bad : Option FieldId) (h : CarriesOutside own s u) :
    CarriesOutside own s (s.checkOperand bad u) := by
  cases bad with
  | none => exact h
  | some f => exact .of_idle hp

theorem CarriesOutside.whenReady (hp : s.phase = .idle) (h : CarriesOutside own s u) :
    CarriesOutside own s (s.whenReady u) := by rwa [whenReady_idle _ _ hp]

theorem CarriesOutside.setField (hp : s.phase = .idle) (bad : Option FieldId) {upd : Record → Record}
    (hu : LeavesAlone own s.record (upd s.record)) : CarriesOutside own s (s.setField bad upd) :=
  .whenReady hp (.checkOperand hp bad (.checkRecord hp (.of_pack rfl hu)))

end carries

theorem enableOrSwitch_carriesOutside (s : State) (target : SchedMode) (l : Latched) :
    CarriesOutside [0, 6, 8, 9] s (s.enableOrSwitch target l) := by
  unfold State.enableOrSwitch
  split
  · exact .of_pack rfl (updEnable_leavesAlone l _)
  · exact .of_pack rfl ((updDisable_leavesAlone _).mono (by simp))

theorem changeSchedule_carriesOutside (s : State) (target : SchedMode) (hour minute : Byte) (t2 : Int) :
    CarriesOutside [0, 6, 8, 9] s (s.changeSchedule target hour minute t2) := by
  cases target with
  | off => exact .of_pack rfl ((updDisable_leavesAlone _).mono (by simp))
  | once => exact enableOrSwitch_carriesOutside _ _ _
  | daily => exact enableOrSwitch_carriesOutside _ _ _

/-- Only a setter takes the block out of IDLE. -/
theorem Effect.isSetter_of_leaves_idle {i : Instr} {s t : State} (e : Effect i s t) (hp : s.phase = .idle)
    (ht : t.phase ≠ .idle) : i.isSetter = true := by
  cases e with
  | wrote _ _ _ _ _ hi => exact hi
  | began => rfl
  | held _ _ hn => exact absurd hp hn
  | lost => exact absurd rfl ht
  | committed => exact absurd rfl ht
  | settling _ h => exact absurd (hp.symm.trans h) (by decide)
  | expired _ h => exact absurd (hp.symm.trans h) (by decide)
  | _ => exact absurd hp ht

/-- Each setter's update leaves alone every byte that is not its own. -/
theorem exec_carriesOutside (i : Instr) (s : State) (hi : i.isSetter = true) (hp : s.phase = .idle) :
    ∃ t, exec i s = .next t ∧ CarriesOutside (commandedBytes i) s t := by
  cases i with
  | setTargetTemp v => exact ⟨_, rfl, .setField hp _ (LeavesAlone.refl.setByte 4 _)⟩
  | setHoldTime v => exact ⟨_, rfl, .setField hp _ (LeavesAlone.refl.setByte 13 _)⟩
  | setChimeVolume v => exact ⟨_, rfl, .setField hp _ (LeavesAlone.refl.setByte 14 _)⟩
  | setPreBoil e => exact ⟨_, rfl, .setField hp _ (LeavesAlone.refl.setByte 1 _)⟩
  | setAltitude v => exact ⟨_, rfl, .setField hp _ (withAltitude_leavesAlone _ _)⟩
  | setClock h m => exact ⟨_, rfl, .setField hp _ ((LeavesAlone.refl.setByte 10 m).setByte 11 h)⟩
  | setClockMode h m d =>
    exact ⟨_, rfl, .setField hp _ (((LeavesAlone.refl.setByte 10 m).setByte 11 h).setByte 12 d)⟩
  | setLanguage c => exact ⟨_, rfl, .setField hp _ (LeavesAlone.refl.setByte 15 _)⟩
  | setSchedule k h m v =>
    refine ⟨_, rfl, .whenReady hp (.checkOperand hp _ (.checkRecord hp ?_))⟩
    split
    · exact changeSchedule_carriesOutside _ _ _ _ _
    · exact .of_idle hp
  | disableSchedule => exact ⟨_, rfl, .whenReady hp (.checkRecord hp (.of_pack rfl (updDisable_leavesAlone _)))⟩
  | _ => exact absurd hi (by decide)

/-- Settles O25: a step into a busy phase from IDLE is a setter's, and a setter carries what is not its own. -/
theorem commandsCarryUntouchedBytes : Obligations.CommandsCarryUntouchedBytes := by
  intro i s t j hp hx hbusy hown hpack
  have hsetter := (exec_effect i s t hx).isSetter_of_leaves_idle hp hbusy
  obtain ⟨u, hu, hcarries⟩ := exec_carriesOutside i s hsetter hp
  obtain rfl : t = u := by simpa [hx] using hu
  exact hcarries hbusy j hown hpack

end Sys2Proof.Machine
end

section
/-! PROOFS. Registers without meaning (10_state.md R12, R15, R17, R18, R25): each operation takes two states that differ only in
such registers to two such states, so exec and the step do. The statement O59. -/

namespace Sys2Proof.Machine

section sameMeaning
variable {s s' u u' : State}

/-! ### Outputs, ports and the agents -/

theorem SameMeaning.cmdReady_eq (h : SameMeaning s s') : s.cmdReady = s'.cmdReady := by
  rw [State.cmdReady, h.phase, State.cmdReady]

theorem SameMeaning.take_eq (h : SameMeaning s s') : s.take = s'.take := by
  unfold State.take; rw [h.ports]

theorem SameMeaning.lowerStrobes (h : SameMeaning s s') : SameMeaning s.lowerStrobes s'.lowerStrobes :=
  { h with resValid := rfl, txValid := rfl, viewPort := rfl }

theorem SameMeaning.raise (h : SameMeaning s s') (e : ResultCode) (info : Byte) :
    SameMeaning (s.raise e info) (s'.raise e info) :=
  { h with res := rfl, resValid := rfl, viewPort := rfl }

theorem SameMeaning.completeOk (h : SameMeaning s s') (v : View) : SameMeaning (s.completeOk v) (s'.completeOk v) :=
  { h with res := rfl, resValid := rfl, viewPort := rfl }

/-- The view of a present record is the same in both. -/
theorem SameMeaning.completeWithRecord (h : SameMeaning s s') (hr : s.recValid = true) :
    SameMeaning s.completeWithRecord s'.completeWithRecord := by
  obtain ⟨hrec, hctr⟩ := h.cache hr
  unfold State.completeWithRecord
  rw [h.cfg, hrec, hctr]
  exact h.completeOk _

theorem SameMeaning.advance (h : SameMeaning s s') : SameMeaning s.advance s'.advance := by
  cases he : s.env with
  | nil =>
    rw [s.advance_of_env_nil he, s'.advance_of_env_nil (h.env ▸ he)]
    exact { h with ports := congrArg Ports.silent h.ports }
  | cons p ps =>
    rw [s.advance_of_env_cons p ps he, s'.advance_of_env_cons p ps (h.env ▸ he)]
    exact { h with ports := rfl, env := rfl }

theorem SameMeaning.resetBlock (h : SameMeaning s s') : SameMeaning s.resetBlock s'.resetBlock := by
  unfold State.resetBlock
  rw [h.cfg, h.ports, h.env]
  exact ⟨rfl, rfl, rfl, rfl, rfl, rfl, rfl, rfl, rfl, fun _ => ⟨rfl, rfl⟩, fun _ => rfl, fun _ => rfl, fun _ => rfl⟩

/-! ### The record -/

theorem SameMeaning.fill (h : SameMeaning s s') (b : Record) : SameMeaning (s.fill b) (s'.fill b) :=
  { h with recValid := rfl, cache := fun _ => ⟨rfl, rfl⟩ }

theorem SameMeaning.discard (h : SameMeaning s s') : SameMeaning s.discard s'.discard :=
  { h with recValid := rfl, cache := nofun }

/-- In IDLE none of `TXB`, `LAT` and `settle_cnt` has meaning. -/
theorem SameMeaning.toIdle (h : SameMeaning s s') : SameMeaning (s.toPhase .idle) (s'.toPhase .idle) :=
  { h with phase := rfl, txb := nofun, lat := nofun, settleCnt := nofun }

/-- A commit reads the buffer in flight and, with LOGICAL feedback, the counter of a present record. -/
theorem SameMeaning.commit (h : SameMeaning s s') (hr : s.recValid = true) (hw : s.writeInFlight = true) :
    SameMeaning s.commit s'.commit := by
  obtain ⟨-, hctr⟩ := h.cache hr
  have htxb := h.txb hw
  exact { h with cache := fun _ => ⟨htxb, by rw [State.commit_ctr, State.commit_ctr, h.cfg, hctr, htxb]⟩ }

/-! ### Writes -/

/-- The same buffer issued in the same phase is the same write; `LAT` must agree where the new phase gives it meaning. -/
theorem SameMeaning.issueWrite (h : SameMeaning s s') (t : Record) {p : Phase} (hsettle : p ≠ .settle)
    (hlat : p = .waitStep1 → s.lat = s'.lat) : SameMeaning (s.issueWrite t p) (s'.issueWrite t p) :=
  { h with
    phase := rfl
    txb := fun _ => rfl
    txValid := rfl
    lat := fun hl => hlat (by cases p <;> simp_all [State.latched])
    settleCnt := fun hp => absurd hp hsettle }

theorem SameMeaning.pack_eq (h : SameMeaning s s') (hr : s.recValid = true) (upd : Record → Record) (sm : Bool) :
    pack s.record s.ctr upd sm = pack s'.record s'.ctr upd sm := by
  obtain ⟨hrec, hctr⟩ := h.cache hr
  rw [hrec, hctr]

theorem SameMeaning.writeOne (h : SameMeaning s s') (hr : s.recValid = true) (upd : Record → Record) (sm : Bool) :
    SameMeaning (s.writeOne upd sm) (s'.writeOne upd sm) := by
  unfold State.writeOne
  rw [h.pack_eq hr]
  exact h.issueWrite _ nofun nofun

/-- The old value of the latch has no meaning: the request is written over it. -/
theorem SameMeaning.beginTwoStep (h : SameMeaning s s') (hr : s.recValid = true) (l : Latched) :
    SameMeaning (s.beginTwoStep l) (s'.beginTwoStep l) := by
  have hlat : SameMeaning { s with lat := l } { s' with lat := l } := { h with lat := fun _ => rfl }
  unfold State.beginTwoStep
  rw [h.pack_eq hr]
  exact hlat.issueWrite _ (p := .waitStep1) (by decide) fun _ => rfl

theorem SameMeaning.issueStep3 (h : SameMeaning s s') (hr : s.recValid = true) (hl : s.latched = true) :
    SameMeaning s.issueStep3 s'.issueStep3 := by
  unfold State.issueStep3
  rw [h.pack_eq hr, h.lat hl]
  exact h.issueWrite _ nofun nofun

/-! ### Commands -/

theorem SameMeaning.whenReady (h : SameMeaning s s') (hu : SameMeaning u u') :
    SameMeaning (s.whenReady u) (s'.whenReady u') := by
  unfold State.whenReady
  rw [← h.cmdReady_eq]
  split
  · exact hu
  · exact h

theorem SameMeaning.checkOperand (h : SameMeaning s s') (bad : Option FieldId) (hu : SameMeaning u u') :
    SameMeaning (s.checkOperand bad u) (s'.checkOperand bad u') := by
  cases bad with
  | none => exact hu
  | some f => exact h.raise _ _

theorem SameMeaning.checkRecord (h : SameMeaning s s') (hu : s.recValid = true → SameMeaning u u') :
    SameMeaning (s.checkRecord u) (s'.checkRecord u') := by
  unfold State.checkRecord
  rw [← h.recValid]
  split
  · exact hu ‹_›
  · exact h.raise _ _

theorem SameMeaning.setField (h : SameMeaning s s') (bad : Option FieldId) (upd : Record → Record) :
    SameMeaning (s.setField bad upd) (s'.setField bad upd) := by
  refine h.whenReady (h.checkOperand bad (h.checkRecord fun hr => ?_))
  obtain ⟨hrec, -⟩ := h.cache hr
  rw [hrec]
  exact h.writeOne hr upd _

theorem SameMeaning.enableOrSwitch (h : SameMeaning s s') (hr : s.recValid = true) (target : SchedMode) (l : Latched) :
    SameMeaning (s.enableOrSwitch target l) (s'.enableOrSwitch target l) := by
  obtain ⟨hrec, -⟩ := h.cache hr
  unfold State.enableOrSwitch
  rw [hrec]
  split
  · exact h.writeOne hr _ _
  · exact h.beginTwoStep hr l

theorem SameMeaning.changeSchedule (h : SameMeaning s s') (hr : s.recValid = true) (target : SchedMode)
    (hour minute : Byte) (t2 : Int) :
    SameMeaning (s.changeSchedule target hour minute t2) (s'.changeSchedule target hour minute t2) := by
  cases target with
  | off => exact h.writeOne hr _ _
  | once => exact h.enableOrSwitch hr _ _
  | daily => exact h.enableOrSwitch hr _ _

theorem SameMeaning.rejectIllegal (h : SameMeaning s s') (why : Illegal) :
    SameMeaning (s.rejectIllegal why) (s'.rejectIllegal why) := h.whenReady (h.raise _ _)

/-! ### Events -/

theorem SameMeaning.loseSession (h : SameMeaning s s') : SameMeaning s.loseSession s'.loseSession := by
  unfold State.loseSession
  rw [← h.phase]
  split
  · exact h.discard.toIdle.raise _ _
  · exact h.discard.toIdle.raise _ _
  · exact h.discard.toIdle.raise _ _
  · exact h.discard.toIdle.raise _ _
  · exact h.discard

/-- The settle delay begins with the parameter's count, and `LAT` keeps its meaning. -/
theorem SameMeaning.startSettle (h : SameMeaning s s') (hl : s.latched = true) :
    SameMeaning s.startSettle s'.startSettle :=
  { h with
    phase := rfl
    txb := nofun
    lat := fun _ => h.lat hl
    settleCnt := fun _ => by rw [State.startSettle_settleCnt, State.startSettle_settleCnt, h.cfg] }

/-- In SETTLE the count and the latched request agree, and the record is present. -/
theorem SameMeaning.settleTick (h : SameMeaning s s') (hr : s.recValid = true) (hp : s.phase = .settle) :
    SameMeaning s.settleTick s'.settleTick := by
  have hl : s.latched = true := by simp [State.latched, hp]
  have hcount : SameMeaning { s with settleCnt := s.settleCnt - 1 } { s' with settleCnt := s'.settleCnt - 1 } :=
    { h with settleCnt := fun _ => congrArg (· - 1) (h.settleCnt hp) }
  unfold State.settleTick
  rw [← h.settleCnt hp] at hcount ⊢
  simp only
  split
  · exact hcount.issueStep3 hr hl
  · exact hcount

/-- WR_ACK commits a buffer in flight over a present record, or does nothing. -/
theorem SameMeaning.execWrAck (h : SameMeaning s s') (hbusy : s.phase ≠ .idle → s.recValid = true) :
    ∃ t t', execWrAck s = .next t ∧ execWrAck s' = .next t' ∧ SameMeaning t t' := by
  refine ⟨_, _, rfl, rfl, ?_⟩
  rw [← h.phase]
  split <;> rename_i hp
  · have hr := hbusy (by simp [hp])
    exact (h.commit hr (by simp [State.writeInFlight, hp])).toIdle.completeWithRecord hr
  · have hr := hbusy (by simp [hp])
    exact (h.commit hr (by simp [State.writeInFlight, hp])).startSettle (by simp [State.latched, hp])
  · have hr := hbusy (by simp [hp])
    exact (h.commit hr (by simp [State.writeInFlight, hp])).toIdle.completeWithRecord hr
  · exact h
  · exact h

theorem SameMeaning.execTick (h : SameMeaning s s') (hbusy : s.phase ≠ .idle → s.recValid = true) :
    ∃ t t', execTick s = .next t ∧ execTick s' = .next t' ∧ SameMeaning t t' := by
  refine ⟨_, _, rfl, rfl, ?_⟩
  rw [← h.phase]
  split <;> rename_i hp
  · exact h.settleTick (hbusy (by simp [hp])) hp
  · exact h
  · exact h
  · exact h
  · exact h

/-! ### Every instruction, every step -/

/-- No instruction tells two such states apart, if a busy block has a record. -/
theorem SameMeaning.exec (h : SameMeaning s s') (hbusy : s.phase ≠ .idle → s.recValid = true) (i : Instr) :
    ∃ t t', exec i s = .next t ∧ exec i s' = .next t' ∧ SameMeaning t t' := by
  cases i with
  | decode =>
    refine ⟨_, _, rfl, rfl, h.whenReady ?_⟩
    rw [← h.cfg, ← h.ports]
    split
    · exact h.raise _ _
    · exact h.completeOk _
  | load =>
    refine ⟨_, _, rfl, rfl, h.whenReady ?_⟩
    rw [← h.ports]
    split
    · exact (h.fill _).completeWithRecord rfl
    · exact h.discard.raise _ _
  | getState => exact ⟨_, _, rfl, rfl, h.whenReady (h.checkRecord h.completeWithRecord)⟩
  | setTargetTemp v => exact ⟨_, _, rfl, rfl, h.setField _ _⟩
  | setHoldTime v => exact ⟨_, _, rfl, rfl, h.setField _ _⟩
  | setChimeVolume v => exact ⟨_, _, rfl, rfl, h.setField _ _⟩
  | setPreBoil e => exact ⟨_, _, rfl, rfl, h.setField _ _⟩
  | setAltitude v => refine ⟨_, _, rfl, rfl, ?_⟩; rw [← h.cfg]; exact h.setField _ _
  | setClock hour minute => exact ⟨_, _, rfl, rfl, h.setField _ _⟩
  | setClockMode hour minute mode => refine ⟨_, _, rfl, rfl, ?_⟩; rw [← h.cfg]; exact h.setField _ _
  | setLanguage c => refine ⟨_, _, rfl, rfl, ?_⟩; rw [← h.cfg]; exact h.setField _ _
  | setSchedule k hour minute v =>
    refine ⟨_, _, rfl, rfl, h.whenReady (h.checkOperand _ (h.checkRecord fun hr => ?_))⟩
    split
    · exact h.changeSchedule hr _ _ _ _
    · exact h
  | disableSchedule => exact ⟨_, _, rfl, rfl, h.whenReady (h.checkRecord fun hr => h.writeOne hr _ _)⟩
  | wrAck => exact h.execWrAck hbusy
  | wrFail => exact ⟨_, _, rfl, rfl, h.loseSession⟩
  | tick => exact h.execTick hbusy
  | invalidate => exact ⟨_, _, rfl, rfl, h.loseSession⟩
  | evReserved0 => exact ⟨_, _, rfl, rfl, h⟩
  | evReserved5 => exact ⟨_, _, rfl, rfl, h⟩
  | evReserved6 => exact ⟨_, _, rfl, rfl, h⟩
  | evReserved7 => exact ⟨_, _, rfl, rfl, h⟩

/-- The two steps take the same thing from the same ports. -/
theorem SameMeaning.step (h : SameMeaning s s') (hbusy : s.phase ≠ .idle → s.recValid = true) :
    ∃ t t', step s = .next t ∧ step s' = .next t' ∧ SameMeaning t t' := by
  unfold Machine.step
  rw [← h.take_eq]
  cases s.take with
  | reset => exact ⟨_, _, rfl, rfl, h.resetBlock.advance⟩
  | nothing => exact ⟨_, _, rfl, rfl, h.lowerStrobes.advance⟩
  | illegal why => exact ⟨_, _, rfl, rfl, (h.lowerStrobes.rejectIllegal why).advance⟩
  | run i =>
    obtain ⟨t, t', ht, ht', hsame⟩ := h.lowerStrobes.exec hbusy i
    exact ⟨t.advance, t'.advance, congrArg (mapNext State.advance) ht, congrArg (mapNext State.advance) ht', hsame.advance⟩

end sameMeaning

/-- Settles O59: the invariant gives a busy block its record, and then no step tells the two states apart. -/
theorem registersWithoutMeaningAreNeverRead : Obligations.RegistersWithoutMeaningAreNeverRead := by
  intro s s' t t' hs _ h ht ht'
  obtain ⟨u, u', hu, hu', hsame⟩ := h.step hs.recordPresent
  obtain rfl : t = u := by simpa [ht] using hu
  obtain rfl : t' = u' := by simpa [ht'] using hu'
  exact hsame

end Sys2Proof.Machine
end

section
/-! PROOFS. The memory (20_memory.md): MemRead and MemWrite byte by byte, the frame of the read commands, and what a step does to
the write in flight. The statements O18, O19 and O56. -/

namespace Sys2Proof.Machine

/-! ### MemRead and MemWrite (R42, R46) -/

theorem Record.byte_setByte_self (r : Record) (i : Fin 17) (b : Byte) : (r.setByte i b).byte i = b := by
  rw [setByte_eq_ofBytes, byte_ofBytes, if_pos rfl]

theorem Record.toNat_memRead2 (r : Record) (o : Fin 16) :
    (r.memRead2 o).toNat = (r.byte o.castSucc).toNat ||| ((r.byte o.succ).toNat <<< 8) := by
  rw [memRead2, BitVec.toNat_append, Nat.or_comm]

/-- The second of the two byte writes is above the first, so the low byte stays. -/
theorem Record.byte_memWrite2_low (r : Record) (o : Fin 16) (v : BitVec 16) :
    (r.memWrite2 o v).byte o.castSucc = v.extractLsb' 0 8 := by
  have hne : o.castSucc ≠ o.succ := Fin.castSucc_lt_succ.ne
  rw [memWrite2, byte_setByte_of_ne _ hne, byte_setByte_self]

theorem Record.byte_memWrite2_high (r : Record) (o : Fin 16) (v : BitVec 16) :
    (r.memWrite2 o v).byte o.succ = v.extractLsb' 8 8 := byte_setByte_self ..

theorem Record.byte_memWrite2_of_ne (r : Record) {o : Fin 16} {j : Fin 17} (v : BitVec 16) (hlow : j ≠ o.castSucc)
    (hhigh : j ≠ o.succ) : (r.memWrite2 o v).byte j = r.byte j := by
  rw [memWrite2, byte_setByte_of_ne _ hhigh, byte_setByte_of_ne _ hlow]

/-- Settles O19: a write of one byte is `setByte`, one of two bytes is two of them at different offsets. -/
theorem memReadAndMemWriteAreLittleEndian : Obligations.MemReadAndMemWriteAreLittleEndian := fun r b v =>
  ⟨fun o => ⟨rfl, r.byte_setByte_self o b, fun _ hne => r.byte_setByte_of_ne hne b⟩,
    fun o => ⟨r.toNat_memRead2 o, r.byte_memWrite2_low o v, r.byte_memWrite2_high o v,
      fun _ hlow hhigh => r.byte_memWrite2_of_ne v hlow hhigh⟩⟩

/-! ### The read commands (R45) -/

/-- A read command leaves the block as it is or ends in a result: every other effect is that of a setter, LOAD or an event. -/
theorem Effect.read_cases {i : Instr} {s t : State} (e : Effect i s t) (hi : i = .decode ∨ i = .getState) :
    t = s ∨ (∃ c info, t = s.raise c info) ∨ ∃ v, t = s.completeOk v := by
  cases e with
  | held => exact .inl rfl
  | ignored => exact .inl rfl
  | rejected _ _ c info => exact .inr (.inl ⟨c, info, rfl⟩)
  | read _ _ v => exact .inr (.inr ⟨v, rfl⟩)
  | wrote _ _ _ _ _ hset => obtain rfl | rfl := hi <;> exact absurd hset (by decide)
  | lost _ _ _ _ _ hlose => obtain rfl | rfl := hi <;> exact absurd hlose (by decide)
  | discarded _ _ _ hlose => obtain rfl | rfl := hi <;> exact absurd hlose (by decide)
  | _ => exact absurd hi (by simp)

/-- Settles O18: a result writes `RES` and the outputs alone, and a read command does no more than that. -/
theorem readsHaveNoSideEffects : Obligations.ReadsHaveNoSideEffects := by
  intro i s t hi hx
  obtain rfl | ⟨c, info, rfl⟩ | ⟨v, rfl⟩ := (exec_effect i s t hx).read_cases hi
  · rfl
  · rfl
  · rfl

/-! ### The write in flight (R44, R47) -/

/-- What can become of the write in flight between two states. -/
inductive WriteChange (s t : State) : Prop
  /-- a write begins, with its strobe, where none was in flight -/
  | issued (hstrobe : t.txValid = true) (hbefore : s.writeInFlight = false) (hafter : t.writeInFlight = true)
  /-- no write is in flight any more, or none was -/
  | landed (hstrobe : t.txValid = false) (hafter : t.writeInFlight = false)
  /-- phase and buffer stay -/
  | kept (hstrobe : t.txValid = false) (hphase : t.phase = s.phase) (hbuf : t.txb = s.txb)

theorem WriteChange.advance {s t : State} (h : WriteChange s t) : WriteChange s t.advance := by
  cases h with
  | issued hstrobe hbefore hafter => exact .issued (by simpa) hbefore (by simpa)
  | landed hstrobe hafter => exact .landed (by simpa) (by simpa)
  | kept hstrobe hphase hbuf => exact .kept (by simpa) (by simpa) (by simpa)

/-- What was in flight before does not depend on the strobes. -/
theorem WriteChange.of_lowerStrobes {s t : State} (h : WriteChange s.lowerStrobes t) : WriteChange s t := by
  cases h with
  | issued hstrobe hbefore hafter => exact .issued hstrobe hbefore hafter
  | landed hstrobe hafter => exact .landed hstrobe hafter
  | kept hstrobe hphase hbuf => exact .kept hstrobe hphase hbuf

/-- With the strobe low before it, every effect treats the write in flight as `WriteChange` has it: writes are issued from IDLE
and from SETTLE, and an answer ends in IDLE or SETTLE. -/
theorem Effect.writeChange {i : Instr} {s t : State} (e : Effect i s t) (hs : s.txValid = false) : WriteChange s t := by
  cases e with
  | wrote _ _ _ _ hp => exact .issued rfl (by simp [State.writeInFlight, hp]) rfl
  | began _ _ _ _ _ _ hp => exact .issued rfl (by simp [State.writeInFlight, hp]) rfl
  | expired _ hp => exact .issued rfl (by simp [State.writeInFlight, hp]) rfl
  | committed => exact .landed hs rfl
  | settling => exact .landed hs rfl
  | lost => exact .landed hs rfl
  | _ => exact .kept hs rfl rfl

/-- An illegal word raises an error or is held: the write in flight stays. -/
theorem rejectIllegal_writeChange (s : State) (why : Illegal) (hs : s.txValid = false) :
    WriteChange s (s.rejectIllegal why) := by
  obtain ⟨-, he⟩ | ⟨-, he⟩ := rejectIllegal_cases s why
  · rw [he]; exact .kept hs rfl rfl
  · rw [he]; exact .kept hs rfl rfl

theorem step_writeChange {s t : State} (h : step s = .next t) : WriteChange s t := by
  obtain ⟨-, rfl⟩ | ⟨-, rfl⟩ | ⟨why, -, rfl⟩ | ⟨i, u, -, hx, rfl⟩ := step_cases s t h
  · exact (WriteChange.landed (t := s.resetBlock) rfl rfl).advance
  · exact (WriteChange.kept (s := s) (t := s.lowerStrobes) rfl rfl rfl).advance
  · exact (rejectIllegal_writeChange s.lowerStrobes why rfl).of_lowerStrobes.advance
  · exact ((exec_effect i _ u hx).writeChange rfl).of_lowerStrobes.advance

/-- Settles O56: a reset lets the write go, a step without an instruction keeps it, and `Effect.writeChange` says what an
instruction does. -/
theorem writesNeverOverlap : Obligations.WritesNeverOverlap := by
  intro s t h
  cases step_writeChange h with
  | issued hstrobe hbefore hafter => simp [hstrobe, hbefore, hafter]
  | landed hstrobe hafter => simp [hstrobe, hafter]
  | kept hstrobe hphase hbuf => simp [hstrobe, hphase, hbuf, State.writeInFlight_congr t s hphase]

end Sys2Proof.Machine
end

section
/-! PROOFS. The encodings (30_encoding.md): the decoder and the encoder undo each other, the legal command words are those of the
opcode table's rows, and an accepted illegal word raises IllegalCommand. The statements O1 to O6. -/

namespace Sys2Proof

/-! ### The opcode and the flag byte (R66 to R68) -/

/-- The value of `OPC` that names the opcode (R66). -/
def Opcode.toByte : Opcode → Byte
  | .decode => 0x01
  | .load => 0x02
  | .getState => 0x03
  | .setTargetTemp => 0x10
  | .setHoldTime => 0x11
  | .setChimeVolume => 0x12
  | .setPreBoil => 0x13
  | .setAltitude => 0x14
  | .setClock => 0x15
  | .setLanguage => 0x16
  | .setSchedule => 0x17
  | .disableSchedule => 0x18

theorem Opcode.ofByte_eq_some_iff (b : Byte) (o : Opcode) : Opcode.ofByte b = some o ↔ b = o.toByte := by
  revert b; cases o <;> decide

theorem Opcode.ofByte_eq_none_iff : ∀ b : Byte, Opcode.ofByte b = none ↔
    b ∉ ([0x01, 0x02, 0x03, 0x10, 0x11, 0x12, 0x13, 0x14, 0x15, 0x16, 0x17, 0x18] : List Byte) := by
  decide

theorem flg_eq_of_reserved_zero :
    ∀ g : Byte, g.extractLsb' 1 7 = 0 → g = if g.getLsbD 0 then 0x01 else 0x00 := by decide

theorem flg_eq_of_mode : ∀ g : Byte, g.extractLsb' 2 6 = 0 → g = (g.extractLsb' 0 2).setWidth 8 := by decide

/-! ### Fields whose must-be-zero part is zero

One lemma per operand form of R66: fields that pass the form's must-be-zero check are what the encoder writes for the operands
read from them. -/

section operandForms
variable {f : CmdFields} {o : Byte} (ho : f.opc = o)
include ho

theorem blankFields_eq
    (hz : (f.flg == 0 && f.a16 == 0 && f.b8 == 0 && f.c8 == 0 && f.d8 == 0 && f.rsv == 0) = true) :
    blankFields o = f := by
  cases f; simp_all [blankFields]

theorem numberFields_eq (hz : (f.flg == 0 && f.b8 == 0 && f.c8 == 0 && f.d8 == 0 && f.rsv == 0) = true) :
    { blankFields o with a16 := toA16 (sext16 f.a16) } = f := by
  cases f; simp_all [blankFields, toA16_sext16]

theorem switchFields_eq
    (hz : (f.flg.extractLsb' 1 7 == 0 && f.a16 == 0 && f.b8 == 0 && f.c8 == 0 && f.d8 == 0 && f.rsv == 0) = true) :
    { blankFields o with flg := if f.flg.getLsbD 0 then 0x01 else 0x00 } = f := by
  rw [← flg_eq_of_reserved_zero f.flg (by simp_all)]
  cases f; simp_all [blankFields]

theorem timeFields_eq (hb : f.flg.getLsbD 0 = false)
    (hz : (f.flg.extractLsb' 1 7 == 0 && f.a16 == 0 && f.d8 == 0 && f.rsv == 0) = true) :
    { blankFields o with b8 := f.b8, c8 := f.c8 } = f := by
  have hg := flg_eq_of_reserved_zero f.flg (by simp_all)
  rw [hb] at hg
  cases f; simp_all [blankFields]

theorem timeAndModeFields_eq (hb : f.flg.getLsbD 0 = true)
    (hz : (f.flg.extractLsb' 1 7 == 0 && f.a16 == 0 && f.rsv == 0) = true) :
    { blankFields o with flg := 0x01, b8 := f.b8, c8 := f.c8, d8 := f.d8 } = f := by
  have hg := flg_eq_of_reserved_zero f.flg (by simp_all)
  rw [hb] at hg
  cases f; simp_all [blankFields]

theorem languageFields_eq (hz : (f.flg == 0 && f.a16 == 0 && f.c8 == 0 && f.d8 == 0 && f.rsv == 0) = true) :
    { blankFields o with b8 := f.b8 } = f := by
  cases f; simp_all [blankFields]

theorem scheduleFields_eq (hz : (f.flg.extractLsb' 2 6 == 0 && f.d8 == 0 && f.rsv == 0) = true) :
    { blankFields o with
      flg := (f.flg.extractLsb' 0 2).setWidth 8, a16 := toA16 (sext16 f.a16), b8 := f.b8, c8 := f.c8 } = f := by
  rw [← flg_eq_of_mode f.flg (by simp_all), toA16_sext16]
  cases f; simp_all [blankFields]

end operandForms

/-! ### Decoding by fields and encoding by fields -/

/-- The instruction has an encoding, and its fields are `f` (R65, R66). -/
def Instr.EncodesTo (i : Instr) (f : CmdFields) : Prop := i.wf = true ∧ encodeFields i = some f

theorem Instr.EncodesTo.of_eq {i : Instr} {f g : CmdFields} (hwf : i.wf = true) (he : encodeFields i = some g)
    (hg : g = f) : i.EncodesTo f := ⟨hwf, he.trans (congrArg some hg)⟩

theorem decodeFields_of_encodesTo {i : Instr} {f : CmdFields} (h : i.EncodesTo f) : decodeFields f = .ok i := by
  obtain ⟨hwf, he⟩ := h
  cases i with
  | decode => cases he; rfl
  | load => cases he; rfl
  | getState => cases he; rfl
  | setTargetTemp v => cases he; exact congrArg (Decoded.ok <| .setTargetTemp ·) (sext16_toA16 v hwf)
  | setHoldTime v => cases he; exact congrArg (Decoded.ok <| .setHoldTime ·) (sext16_toA16 v hwf)
  | setChimeVolume v => cases he; exact congrArg (Decoded.ok <| .setChimeVolume ·) (sext16_toA16 v hwf)
  | setPreBoil e => cases he; cases e <;> rfl
  | setAltitude v => cases he; exact congrArg (Decoded.ok <| .setAltitude ·) (sext16_toA16 v hwf)
  | setClock h m => cases he; simp [decodeFields, blankFields, Opcode.ofByte, mustBeZero]
  | setClockMode h m d => cases he; simp [decodeFields, blankFields, Opcode.ofByte, mustBeZero]
  | setLanguage l => cases he; rfl
  | setSchedule k h m v =>
    cases he
    obtain ⟨hmode, hreserved⟩ := flg_of_mode k
    simp [decodeFields, blankFields, Opcode.ofByte, mustBeZero, hmode, hreserved, sext16_toA16 v hwf]
  | disableSchedule => cases he; rfl
  | _ => cases he

/-- An instruction that a must-be-zero check lets through, when the check makes `f` its fields. -/
theorem encodesTo_of_mustBeZero {z : Bool} {i j : Instr} {f g : CmdFields} (h : mustBeZero z j = .ok i)
    (hwf : j.wf = true) (he : encodeFields j = some g) (hg : z = true → g = f) : i.EncodesTo f := by
  obtain ⟨hz, rfl⟩ := (mustBeZero_ok z j i).1 h
  exact .of_eq hwf he (hg hz)

theorem encodesTo_of_decodeFields {f : CmdFields} {i : Instr} (h : decodeFields f = .ok i) : i.EncodesTo f := by
  unfold decodeFields at h
  cases hopc : Opcode.ofByte f.opc with
  | none => rw [hopc] at h; cases h
  | some o =>
    have ho := (Opcode.ofByte_eq_some_iff _ _).1 hopc
    rw [hopc] at h
    cases o with
    | decode => exact encodesTo_of_mustBeZero h rfl rfl (blankFields_eq ho)
    | load => exact encodesTo_of_mustBeZero h rfl rfl (blankFields_eq ho)
    | getState => exact encodesTo_of_mustBeZero h rfl rfl (blankFields_eq ho)
    | setTargetTemp => exact encodesTo_of_mustBeZero h (fitsA16_sext16 _) rfl (numberFields_eq ho)
    | setHoldTime => exact encodesTo_of_mustBeZero h (fitsA16_sext16 _) rfl (numberFields_eq ho)
    | setChimeVolume => exact encodesTo_of_mustBeZero h (fitsA16_sext16 _) rfl (numberFields_eq ho)
    | setPreBoil => exact encodesTo_of_mustBeZero h rfl rfl (switchFields_eq ho)
    | setAltitude => exact encodesTo_of_mustBeZero h (fitsA16_sext16 _) rfl (numberFields_eq ho)
    | setClock =>
      cases hb : f.flg.getLsbD 0 with
      | false => rw [hb] at h; exact encodesTo_of_mustBeZero h rfl rfl (timeFields_eq ho hb)
      | true => rw [hb] at h; exact encodesTo_of_mustBeZero h rfl rfl (timeAndModeFields_eq ho hb)
    | setLanguage => exact encodesTo_of_mustBeZero h rfl rfl (languageFields_eq ho)
    | setSchedule => exact encodesTo_of_mustBeZero h (fitsA16_sext16 _) rfl (scheduleFields_eq ho)
    | disableSchedule => exact encodesTo_of_mustBeZero h rfl rfl (blankFields_eq ho)

/-- The decoder accepts exactly the encodings (R64 to R67). -/
theorem decodeCommand_eq_ok_iff (w : CmdWord) (i : Instr) :
    decodeCommand w = .ok i ↔ i.EncodesTo (CmdFields.ofWord w) :=
  ⟨encodesTo_of_decodeFields, decodeFields_of_encodesTo⟩

/-! ### The port word of an instruction -/

theorem encode_of_encodeFields {i : Instr} {f : CmdFields} (h : encodeFields i = some f) : encode i = .cmd f.toWord := by
  cases i <;> cases h <;> rfl

theorem exists_encodeFields_of_command {i : Instr} (h : i.isEvent = false) : ∃ f, encodeFields i = some f := by
  cases i with
  | wrAck | wrFail | tick | invalidate | evReserved0 | evReserved5 | evReserved6 | evReserved7 => cases h
  | _ => exact ⟨_, rfl⟩

theorem wf_decodeEvent : ∀ c : EvCode, (decodeEvent c).wf = true := by decide

/-- Every instruction's encoding is on its own port and in its own row (R66, R69). -/
theorem Laws.TableRow.all (i : Instr) : Laws.TableRow.Statement i :=
  match i with
  | .decode => TableRow.decode
  | .load => TableRow.load
  | .getState => TableRow.getState
  | .setTargetTemp v => TableRow.setTargetTemp v
  | .setHoldTime v => TableRow.setHoldTime v
  | .setChimeVolume v => TableRow.setChimeVolume v
  | .setPreBoil e => TableRow.setPreBoil e
  | .setAltitude v => TableRow.setAltitude v
  | .setClock h m => TableRow.setClock h m
  | .setClockMode h m d => TableRow.setClockMode h m d
  | .setLanguage l => TableRow.setLanguage l
  | .setSchedule k h m v => TableRow.setSchedule k h m v
  | .disableSchedule => TableRow.disableSchedule
  | .wrAck => TableRow.wrAck
  | .wrFail => TableRow.wrFail
  | .tick => TableRow.tick
  | .invalidate => TableRow.invalidate
  | .evReserved0 => TableRow.evReserved0
  | .evReserved5 => TableRow.evReserved5
  | .evReserved6 => TableRow.evReserved6
  | .evReserved7 => TableRow.evReserved7

/-- Settles O1: an event's code names it again, and a command's fields survive the word and decode to it. -/
theorem decodeOfEncodeIsTheInstruction : Obligations.DecodeOfEncodeIsTheInstruction := by
  intro i hwf
  obtain ⟨-, -, c, hc, hi⟩ | ⟨hcmd, -⟩ := Laws.TableRow.all i
  · rw [hc, decode, hi]
  · obtain ⟨f, hf⟩ := exists_encodeFields_of_command hcmd
    rw [encode_of_encodeFields hf, decode, decodeCommand_eq_ok_iff, CmdFields.ofWord_toWord]
    exact ⟨hwf, hf⟩

/-- Settles O2: an accepted word's fields are the encoding of what it decodes to, and they make up the whole word. -/
theorem encodeOfDecodeIsThePortWord : Obligations.EncodeOfDecodeIsThePortWord := by
  intro p i h
  cases p with
  | cmd w =>
    obtain ⟨hwf, hf⟩ := (decodeCommand_eq_ok_iff w i).1 h
    exact ⟨hwf, by rw [encode_of_encodeFields hf, CmdFields.toWord_ofWord]⟩
  | ev c =>
    cases h
    exact ⟨wf_decodeEvent c, encode_decodeEvent c⟩

/-! ### The rows of the opcode table (R66) -/

theorem mem_cmdRows_of_cmdRow {i : Instr} {row : CmdRow} (h : cmdRow i = some row) : row ∈ cmdRows := by
  cases i <;> cases h <;> decide

theorem exists_cmdRow_of_mem {row : CmdRow} (h : row ∈ cmdRows) : ∃ i, cmdRow i = some row := by
  rw [cmdRows, List.mem_append, List.mem_filterMap, List.mem_filterMap] at h
  obtain ⟨i, -, hi⟩ | ⟨i, -, hi⟩ := h <;> exact ⟨i, hi⟩

/-- The patterns of two rows differ in a bit that both masks keep, so no word matches both. -/
theorem cmdRows_disjoint :
    ∀ r ∈ cmdRows, ∀ r' ∈ cmdRows, r.pat &&& r'.mask = r'.pat &&& r.mask → r = r' := by decide

theorem eq_of_matchesWord {r r' : CmdRow} {w : CmdWord} (hr : r ∈ cmdRows) (hr' : r' ∈ cmdRows)
    (h : r.matchesWord w = true) (h' : r'.matchesWord w = true) : r = r' := by
  rw [CmdRow.matchesWord, beq_iff_eq] at h h'
  refine cmdRows_disjoint r hr r' hr' ?_
  rw [← h, ← h', BitVec.and_assoc, BitVec.and_assoc, BitVec.and_comm r.mask]

/-- The row of the instruction a word decodes to is one the word matches: the word is the instruction's encoding. -/
theorem matches_own_row {w : CmdWord} {i : Instr} (h : decodeCommand w = .ok i) :
    ∃ row, cmdRow i = some row ∧ row.matchesWord w = true := by
  obtain ⟨-, hw⟩ := encodeOfDecodeIsThePortWord (.cmd w) i h
  obtain ⟨-, -, c, hc, -⟩ | ⟨-, row, f, hrow, hf, hm⟩ := Laws.TableRow.all i
  · cases hc.symm.trans hw
  · cases hf.symm.trans hw
    exact ⟨row, hrow, hm⟩

theorem byte_and_ones (x : Byte) : x &&& 0xFF#8 = x := BitVec.and_allOnes

theorem a16_and_ones (x : BitVec 16) : x &&& 0xFFFF#16 = x := BitVec.and_allOnes

/-- A word that matches a row is the encoding of an instruction, its operands read from the word: what the row's mask keeps is
what the decoder wants to be zero. -/
theorem exists_encodesTo_of_matches {j : Instr} {row : CmdRow} {w : CmdWord} (hrow : cmdRow j = some row)
    (h : row.matchesWord w = true) : ∃ i : Instr, i.EncodesTo (CmdFields.ofWord w) := by
  rw [CmdRow.matchesWord_iff] at h
  generalize CmdFields.ofWord w = f at h
  cases j <;> cases hrow
  all_goals
    simp only [CmdFields.ofWord, BitVec.reduceExtractLsb', BitVec.ofNat_eq_ofNat, BitVec.and_zero, byte_and_ones, a16_and_ones,
      true_and] at h
    obtain ⟨ho, hz⟩ := h
  case decode => exact ⟨.decode, .of_eq rfl rfl (blankFields_eq ho (by simp [hz]))⟩
  case load => exact ⟨.load, .of_eq rfl rfl (blankFields_eq ho (by simp [hz]))⟩
  case getState => exact ⟨.getState, .of_eq rfl rfl (blankFields_eq ho (by simp [hz]))⟩
  case setTargetTemp => exact ⟨.setTargetTemp _, .of_eq (fitsA16_sext16 _) rfl (numberFields_eq ho (by simp [hz]))⟩
  case setHoldTime => exact ⟨.setHoldTime _, .of_eq (fitsA16_sext16 _) rfl (numberFields_eq ho (by simp [hz]))⟩
  case setChimeVolume => exact ⟨.setChimeVolume _, .of_eq (fitsA16_sext16 _) rfl (numberFields_eq ho (by simp [hz]))⟩
  case setPreBoil =>
    obtain ⟨hflg, hz⟩ := hz
    exact ⟨.setPreBoil _, .of_eq rfl rfl (switchFields_eq ho (by simp [(flg_bit0 _).1 hflg, hz]))⟩
  case setAltitude => exact ⟨.setAltitude _, .of_eq (fitsA16_sext16 _) rfl (numberFields_eq ho (by simp [hz]))⟩
  case setClock => exact ⟨.setClock _ _, .of_eq rfl rfl (timeFields_eq ho (by simp [hz]) (by simp [hz]))⟩
  case setClockMode => exact ⟨.setClockMode _ _ _, .of_eq rfl rfl (timeAndModeFields_eq ho (by simp [hz]) (by simp [hz]))⟩
  case setLanguage => exact ⟨.setLanguage _, .of_eq rfl rfl (languageFields_eq ho (by simp [hz]))⟩
  case setSchedule =>
    obtain ⟨hflg, hz⟩ := hz
    exact ⟨.setSchedule _ _ _ _,
      .of_eq (fitsA16_sext16 _) rfl (scheduleFields_eq ho (by simp [(flg_mode _).1 hflg, hz]))⟩
  case disableSchedule => exact ⟨.disableSchedule, .of_eq rfl rfl (blankFields_eq ho (by simp [hz]))⟩

theorem exists_decode_iff_matches (w : CmdWord) :
    (∃ i, decodeCommand w = .ok i) ↔ ∃ row ∈ cmdRows, row.matchesWord w = true := by
  constructor
  · rintro ⟨i, hi⟩
    obtain ⟨row, hrow, hm⟩ := matches_own_row hi
    exact ⟨row, mem_cmdRows_of_cmdRow hrow, hm⟩
  · rintro ⟨row, hmem, hm⟩
    obtain ⟨j, hj⟩ := exists_cmdRow_of_mem hmem
    obtain ⟨i, hi⟩ := exists_encodesTo_of_matches hj hm
    exact ⟨i, (decodeCommand_eq_ok_iff w i).2 hi⟩

/-- Settles O3: the legal words are the encodings, and the rows' masks keep apart what their patterns fix. -/
theorem legalWordsAreExactlyTheTableRows : Obligations.LegalWordsAreExactlyTheTableRows := fun w =>
  ⟨exists_decode_iff_matches w, fun _ hr _ hr' h h' => eq_of_matchesWord hr hr' h h', fun _ h => matches_own_row h⟩

/-! ### Illegal words (R67, R68) -/

/-- A legal opcode leaves only the must-be-zero check to fail. -/
theorem exists_mustBeZero_of_opcode {f : CmdFields} {o : Opcode} (ho : Opcode.ofByte f.opc = some o) :
    ∃ z i, decodeFields f = mustBeZero z i := by
  unfold decodeFields
  rw [ho]
  cases o with
  | setClock => cases f.flg.getLsbD 0 <;> exact ⟨_, _, rfl⟩
  | _ => exact ⟨_, _, rfl⟩

/-- The opcode is looked at first: it is the reason exactly when it names nothing. -/
theorem decodeCommand_eq_unknownOpcode_iff (w : CmdWord) :
    decodeCommand w = .illegal .unknownOpcode ↔ Opcode.ofByte (w.extractLsb' 56 8) = none := by
  show decodeFields (CmdFields.ofWord w) = _ ↔ Opcode.ofByte (CmdFields.ofWord w).opc = none
  cases ho : Opcode.ofByte (CmdFields.ofWord w).opc with
  | none => simp [decodeFields, ho]
  | some o =>
    obtain ⟨z, i, hd⟩ := exists_mustBeZero_of_opcode ho
    rw [hd]
    cases z <;> simp [mustBeZero]

end Sys2Proof

namespace Sys2Proof.Machine

/-- An illegal word that is accepted is one raised error, moved on. -/
theorem step_of_accepted_illegal {s : State} {w : CmdWord} {why : Illegal} (hreset : s.ports.reset = false)
    (hev : s.ports.ev = none) (hcmd : s.ports.cmd = some w) (hidle : s.phase = .idle)
    (hd : decodeCommand w = .illegal why) :
    step s = .next (s.lowerStrobes.withError 0x07 why.info).advance := by
  have htake : s.take = .illegal why := by rw [s.take_of_command w hreset hev hcmd, decode, hd, Taken.ofDecoded]
  have hraise : s.lowerStrobes.rejectIllegal why = s.lowerStrobes.raise .illegalCommand why.info :=
    whenReady_idle _ _ hidle
  simp only [step, htake, hraise]
  rfl

/-- Settles O4: the opcode is decoded first, and a byte outside the map names none. -/
theorem unknownOpcodeRaisesIllegalCommand : Obligations.UnknownOpcodeRaisesIllegalCommand := by
  intro s w hreset hev hcmd hidle hopc
  exact step_of_accepted_illegal hreset hev hcmd hidle
    ((decodeCommand_eq_unknownOpcode_iff w).2 ((Opcode.ofByte_eq_none_iff _).2 hopc))

/-- Settles O5: without a matching row the word is illegal (O3), and not for its opcode, so for a reserved field. -/
theorem nonzeroReservedFieldRaisesIllegalCommand : Obligations.NonzeroReservedFieldRaisesIllegalCommand := by
  intro s w hreset hev hcmd hidle hopc hrows
  cases hd : decodeCommand w with
  | ok i =>
    obtain ⟨row, hmem, hm⟩ := (exists_decode_iff_matches w).1 ⟨i, hd⟩
    rw [hrows row hmem] at hm
    cases hm
  | illegal why =>
    cases why with
    | unknownOpcode =>
      have hnone := (decodeCommand_eq_unknownOpcode_iff w).1 hd
      exact absurd hopc ((Opcode.ofByte_eq_none_iff _).1 hnone)
    | reservedField => exact step_of_accepted_illegal hreset hev hcmd hidle hd

end Sys2Proof.Machine

namespace Sys2Proof

/-- Settles O6, by evaluation of the decoder on the twelve words. -/
theorem wordsWrittenOutDecode : Obligations.WordsWrittenOutDecode := by
  unfold Obligations.WordsWrittenOutDecode
  decide

end Sys2Proof
end

section
/-! PROOFS. Byte 16 of a packed buffer (30_encoding.md R63, 41_pack_and_counter.md R125). The statement O23. -/

namespace Sys2Proof.Machine

/-- The submode bit leaves the counter's other bits, whether the schedule is enabled or not. -/
theorem wireCounter_other (n : Byte) (enabled submode : Bool) {k : Fin 8} (hk : k ≠ 3) :
    bitOf (wireCounter n enabled submode) k = bitOf n k := by
  cases enabled with
  | false => rfl
  | true => exact withBit3_other n submode k hk

/-- Settles O23: byte 16 is `wireCounter` of the incremented counter, under the schedule bit of the buffer itself. -/
theorem submodeReplacesOnlyBit3OfTheCounter : Obligations.SubmodeReplacesOnlyBit3OfTheCounter := by
  intro r c upd sm k t
  have hbyte : t.byte 16 = wireCounter (c + 1) t.schedEnabled sm := by
    rw [pack_schedEnabled]; exact pack_counter r c upd sm
  rw [hbyte]
  refine ⟨wireCounter_other _ _ _, fun (h : t.schedEnabled = true) => ?_, fun (h : t.schedEnabled = false) => ?_⟩
  · rw [h]; exact withBit3_bit3 (c + 1) sm
  · rw [h]; rfl

end Sys2Proof.Machine
end

section
/-! PROOFS. Unpack (40_unpack.md): the altitude and the schedule mode of a buffer, what a transport read leaves on the buffer port,
the view of a packed buffer, and the three commands in full. The statements O11 to O17. -/

namespace Sys2Proof.Machine

/-! ### The schedule mode (R95) -/

section schedMode
variable {b : Record}

theorem Record.schedMode_of_disabled (h : b.schedEnabled = false) : b.schedMode = .off := by
  simp [schedMode, h]

theorem Record.schedMode_of_once (he : b.schedEnabled = true) (hs : b.schedSubmode = true) : b.schedMode = .once := by
  simp [schedMode, he, hs]

theorem Record.schedMode_of_daily (he : b.schedEnabled = true) (hs : b.schedSubmode = false) : b.schedMode = .daily := by
  simp [schedMode, he, hs]

end schedMode

/-- Settles O12: bits 3 of bytes 0 and 16 are `schedEnabled` and `schedSubmode`, the two tests of `schedMode`. -/
theorem scheduleModeComesFromTwoBits : Obligations.ScheduleModeComesFromTwoBits := fun _ =>
  ⟨Record.schedMode_of_disabled, Record.schedMode_of_once, Record.schedMode_of_daily, rfl, rfl, rfl⟩

/-! ### The view (R90) -/

/-- The stored altitude by masking, shifting and joining the bytes, as R61 writes it. -/
theorem Record.raw15_toNat_eq_or (t : Record) :
    t.raw15.toNat = (t.byte 2).toNat ||| (((t.byte 3).toNat &&& 0x7F) <<< 8) := by
  have hmask : (t.byte 3).toNat &&& 0x7F = (t.byte 3).toNat % 128 := Nat.and_two_pow_sub_one_eq_mod _ 7
  rw [raw15_bytes, hmask, Nat.or_comm, ← Nat.shiftLeft_add_eq_or_of_lt (t.byte 2).isLt, Nat.shiftLeft_eq]
  rfl

theorem clockModeView_known {cfg : Config} {b : Byte} {m : ClockMode} (h : cfg.clockModeCodes.lookup b = some m) :
    clockModeView cfg b = .known m := by
  simp [clockModeView, clockModeOf, h]

theorem clockModeView_unrecognized {cfg : Config} {b : Byte} (h : cfg.clockModeCodes.lookup b = none) :
    clockModeView cfg b = .unrecognized := by
  simp [clockModeView, clockModeOf, h]

theorem languageOk_iff (cfg : Config) (b : Byte) : languageOk cfg b = true ↔ b ∈ cfg.langSet := List.contains_iff_mem

/-- Settles O11: every field but the altitude, the clock mode and the known language is a byte or a bit of the buffer as it is. -/
theorem viewReportsEveryField : Obligations.ViewReportsEveryField := by
  intro cfg b c raw v
  have haltitude : v.altitudeM.toNat = raw - raw % 30 := by
    show b.altitudeM.toNat = _
    rw [b.altitudeM_toNat, b.raw15_toNat_eq_or]
    rfl
  exact ⟨rfl, rfl, rfl, rfl, rfl, haltitude, rfl, rfl, rfl, rfl, rfl, rfl, rfl, rfl, rfl, rfl,
    fun _ => clockModeView_known, clockModeView_unrecognized, rfl, rfl, rfl, languageOk_iff cfg _, rfl, rfl, rfl, rfl⟩

/-! ### The length of a read, and the bytes it leaves (R91) -/

theorem decodeRead_short (cfg : Config) (b : Record) {len : Byte} (h : len.toNat < 17) : decodeRead cfg b len = none := by
  simp [decodeRead, lengthOk_of_lt len h]

theorem decodeRead_long (cfg : Config) (b : Record) {len : Byte} (h : 17 ≤ len.toNat) :
    decodeRead cfg b len = some (view cfg b (b.byte 16)) := by
  rw [decodeRead, lengthOk_of_le len h]
  rfl

/-- The length saturates at 255, so it fits its byte. -/
theorem Ports.afterRead_rxLen_toNat (p : Ports) (bytes : List Byte) : (p.afterRead bytes).rxLen.toNat = min bytes.length 255 := by
  show (BitVec.ofNat 8 (min bytes.length 255)).toNat = _
  rw [BitVec.toNat_ofNat]
  omega

theorem Ports.le_afterRead_rxLen (p : Ports) {bytes : List Byte} (h : 17 ≤ bytes.length) :
    17 ≤ (p.afterRead bytes).rxLen.toNat := by
  rw [afterRead_rxLen_toNat]
  omega

theorem Ports.afterRead_rxBuf (p : Ports) (bytes : List Byte) :
    (p.afterRead bytes).rxBuf = .ofBytes fun i => bytes.getD i (Config.unreadRxByte i) := rfl

/-- The buffer port shows the first seventeen bytes of a read and no others. -/
theorem Ports.afterRead_rxBuf_congr (p : Ports) {bs bs' : List Byte} (h : bs.take 17 = bs'.take 17) :
    (p.afterRead bs).rxBuf = (p.afterRead bs').rxBuf := by
  rw [afterRead_rxBuf, afterRead_rxBuf]
  refine congrArg _ (funext fun i => ?_)
  rw [List.getD_eq_getElem?_getD, List.getD_eq_getElem?_getD, ← List.getElem?_take_of_lt i.isLt, h,
    List.getElem?_take_of_lt i.isLt]

/-- Settles O13: both reads are long enough, and the buffer port shows the same bytes after them. -/
theorem decodingFailsOnlyOnLength : Obligations.DecodingFailsOnlyOnLength := by
  refine ⟨fun cfg b len => ⟨decodeRead_short cfg b, decodeRead_long cfg b⟩, fun cfg p bytes rest hlen => ?_⟩
  have hfirst : (bytes ++ rest).take 17 = bytes.take 17 := List.take_append_of_le_length hlen.ge
  have hlong : 17 ≤ (bytes ++ rest).length := by rw [List.length_append]; omega
  rw [p.afterRead_rxBuf_congr hfirst, decodeRead_long _ _ (p.le_afterRead_rxLen hlong),
    decodeRead_long _ _ (p.le_afterRead_rxLen hlen.ge)]

/-! ### Packed buffers (R97) -/

/-- The view shows the altitude of a canonical buffer as it is stored. -/
theorem Record.Canonical.altitudeM_eq_raw15 {t : Record} (h : t.Canonical) : t.altitudeM = t.raw15 :=
  BitVec.eq_of_toNat_eq (by rw [t.altitudeM_toNat, floor30_of_mod _ h.bucket])

/-- Settles O17: a view reads the buffer port, which shows the first seventeen bytes alone; and a packed buffer is canonical. -/
theorem packedBuffersAreCanonical : Obligations.PackedBuffersAreCanonical := by
  refine ⟨fun cfg p bs bs' c _ _ h => by rw [p.afterRead_rxBuf_congr h], ?_⟩
  intro cfg r c c' upd sm t
  have hcanonical : t.Canonical := pack_canonical r c upd sm
  have hstored : (view cfg t c').altitudeM = t.raw15 := hcanonical.altitudeM_eq_raw15
  exact ⟨hcanonical.marker, by rw [hstored]; exact hcanonical.bucket, hstored, hcanonical.sentinel⟩

/-! ### The three commands (R92, R93, R94) -/

/-- A command that the block is too busy to accept changes nothing (R217). -/
theorem whenReady_held {s u : State} (hp : s.phase ≠ .idle) : Host.Outcome.next (s.whenReady u) = (.next s : Outcome) :=
  congrArg _ (whenReady_busy s u hp)

/-- A command accepted in IDLE answers its body. -/
theorem whenReady_accepted {s u t : State} (hp : s.phase = .idle) (hu : u = t) :
    Host.Outcome.next (s.whenReady u) = (.next t : Outcome) :=
  congrArg _ ((whenReady_idle s u hp).trans hu)

/-- Settles O14: by phase, and then by the two outcomes of decoding. -/
theorem decodeCommandViewsTheBuffer : Obligations.DecodeCommandViewsTheBuffer := fun s =>
  ⟨fun hp => whenReady_held hp,
    fun hp hlen => whenReady_accepted hp (by rw [decodeRead_short _ _ hlen]; rfl),
    fun hp hlen => whenReady_accepted hp (by rw [decodeRead_long _ _ hlen]; rfl)⟩

/-- Settles O15: by phase, and then by the length of the read. -/
theorem loadReplacesTheCachedRecord : Obligations.LoadReplacesTheCachedRecord := fun s =>
  ⟨fun hp => whenReady_held hp,
    fun hp hlen => whenReady_accepted hp (by rw [lengthOk_of_lt _ hlen]; rfl),
    fun hp hlen => whenReady_accepted hp (by rw [lengthOk_of_le _ hlen]; rfl)⟩

/-- Settles O16: by phase, and then by the presence of the record. -/
theorem getStateViewsTheCachedRecord : Obligations.GetStateViewsTheCachedRecord := fun s =>
  ⟨fun hp => whenReady_held hp,
    fun hp hr => whenReady_accepted hp (checkRecord_absent s _ hr),
    fun hp hr => whenReady_accepted hp (checkRecord_present s _ hr)⟩

end Sys2Proof.Machine
end

section
/-! PROOFS. Pack (41_pack_and_counter.md R121 to R126): the two altitude bytes, and every buffer an instruction issues. The statements
O20, O21 and O22. -/

namespace Sys2Proof.Machine

/-! ### The altitude bytes (R61, R122) -/

/-- The word written at offset 2 is the marker above the altitude. -/
theorem toNat_marker_append (a : BitVec 15) : (1#1 ++ a : BitVec 16).toNat = 32768 + a.toNat := by
  rw [BitVec.toNat_append, ← Nat.shiftLeft_add_eq_or_of_lt a.isLt]
  rfl

theorem Record.toNat_altLo_withAltitude (t : Record) (a : BitVec 15) : (t.withAltitude a).altLo.toNat = a.toNat % 256 := by
  have hbyte : (t.withAltitude a).altLo = (1#1 ++ a : BitVec 16).extractLsb' 0 8 := t.byte_memWrite2_low 2 _
  rw [hbyte, BitVec.extractLsb'_toNat, toNat_marker_append]
  omega

theorem Record.toNat_altHi_withAltitude (t : Record) (a : BitVec 15) : (t.withAltitude a).altHi.toNat = 128 + a.toNat / 256 := by
  have hbyte : (t.withAltitude a).altHi = (1#1 ++ a : BitVec 16).extractLsb' 8 8 := t.byte_memWrite2_high 2 _
  have hlt := a.isLt
  rw [hbyte, BitVec.extractLsb'_toNat, toNat_marker_append, Nat.shiftRight_eq_div_pow]
  omega

section pack
variable (r : Record) (c : Byte) (upd : Record → Record) (sm : Bool)

theorem pack_altLo : (pack r c upd sm).altLo = ((upd r).withAltitude (upd r).altitudeM).altLo := by rw [pack_eq]; rfl
theorem pack_altHi : (pack r c upd sm).altHi = ((upd r).withAltitude (upd r).altitudeM).altHi := by rw [pack_eq]; rfl

/-! ### The bytes under the enabled bit (R123, R124, R125) -/

theorem pack_of_disabled (h : (upd r).schedEnabled = false) :
    (pack r c upd sm).schedT2 = Config.sentTemp ∧ (pack r c upd sm).schedMin = Config.sentMin ∧
    (pack r c upd sm).schedHour = Config.sentHour ∧ (pack r c upd sm).counter = c + 1 := by
  simp [h, wireCounter]

theorem pack_of_enabled (h : (upd r).schedEnabled = true) :
    (pack r c upd sm).schedT2 = (upd r).schedT2 ∧ (pack r c upd sm).schedMin = (upd r).schedMin ∧
    (pack r c upd sm).schedHour = (upd r).schedHour ∧ (pack r c upd sm).counter = withBit3 (c + 1) sm := by
  simp [h, wireCounter]

end pack

/-- Settles O20: `alwaysPacked` lists the bytes that pack writes itself; two of them hold the altitude, and the enabled bit
decides the other four. -/
theorem packWritesEachByte : Obligations.PackWritesEachByte := by
  intro r c upd sm u t raw a
  have haltitude : u.altitudeM.toNat = a := by rw [u.altitudeM_toNat, u.raw15_toNat_eq_or]; rfl
  refine ⟨fun j hj => pack_byte r c upd sm hj, ?_, ?_, pack_of_disabled r c upd sm, pack_of_enabled r c upd sm⟩
  · show t.altLo.toNat = _
    rw [pack_altLo, Record.toNat_altLo_withAltitude, haltitude]
  · show t.altHi.toNat = _
    rw [pack_altHi, Record.toNat_altHi_withAltitude, haltitude]

/-! ### Buckets (R122, R126) -/

/-- Settles O21: the packed altitude is `floor30` of what the update left, and packing again finds a canonical buffer. -/
theorem everyPackBucketsTheAltitude : Obligations.EveryPackBucketsTheAltitude := by
  intro r c c' upd sm sm' t
  have hcanonical : t.Canonical := pack_canonical r c upd sm
  have hbucket : t.raw15.toNat = (upd r).raw15.toNat / 30 * 30 := by
    rw [pack_raw15, Record.altitudeM_toNat, floor30_spec]
  have hagain : (pack t c' id sm').raw15 = t.raw15 := by
    rw [pack_raw15]; exact hcanonical.altitudeM_eq_raw15
  exact ⟨hcanonical.bucket, by omega, by omega, hcanonical.marker, hagain, floor30_idem⟩

/-! ### Issued buffers (R123) -/

/-- A buffer whose strobe an effect raises comes from pack. -/
theorem Effect.issued_canonical {i : Instr} {s t : State} (e : Effect i s t) (hs : s.txValid = false)
    (ht : t.txValid = true) : t.txb.Canonical := by
  cases e with
  | wrote => exact pack_canonical ..
  | began => exact pack_canonical ..
  | expired => exact pack_canonical ..
  | _ => exact absurd (hs.symm.trans ht) (by decide)

/-- Settles O22: what an instruction issues is canonical, and pack leaves an enabled schedule's bytes to the update. -/
theorem disabledSchedulesCarryTheSentinel : Obligations.DisabledSchedulesCarryTheSentinel := by
  refine ⟨fun i s t hs hx ht => ((exec_effect i s t hx).issued_canonical hs ht).sentinel, fun r c upd sm h => ?_⟩
  obtain ⟨ht2, hmin, hhour, -⟩ := pack_of_enabled r c upd sm h
  exact ⟨ht2, hmin, hhour⟩

end Sys2Proof.Machine
end

section
/-! PROOFS. The frame of the commands (41_pack_and_counter.md R127 and R128, 43_schedule.md R184). The statement O35. -/

namespace Sys2Proof.Machine

/-- A command other than LOAD is held, ends in a result, or begins a write: the other effects are LOAD's and the events'. -/
theorem Effect.command_cases {i : Instr} {s t : State} (e : Effect i s t) (hi : i.isEvent = false) (hl : i ≠ .load) :
    t = s ∨ (∃ c info, t = s.raise c info) ∨ (∃ v, t = s.completeOk v) ∨
    (s.phase = .idle ∧ ∃ upd sm, t = s.writeOne upd sm) ∨
    (s.phase = .idle ∧ (∃ k h m v, i = .setSchedule k h m v) ∧ ∃ l, t = s.beginTwoStep l) := by
  cases e with
  | held => exact .inl rfl
  | rejected _ _ c info => exact .inr (.inl ⟨c, info, rfl⟩)
  | read _ _ v => exact .inr (.inr (.inl ⟨v, rfl⟩))
  | wrote _ _ upd sm hp => exact .inr (.inr (.inr (.inl ⟨hp, upd, sm, rfl⟩)))
  | began k h m v _ l hp => exact .inr (.inr (.inr (.inr ⟨hp, ⟨k, h, m, v, rfl⟩, l, rfl⟩)))
  | loaded => exact absurd rfl hl
  | loadFailed => exact absurd rfl hl
  | lost _ _ _ _ _ hlose => obtain rfl | rfl := hlose <;> exact absurd hi (by decide)
  | discarded _ _ _ hlose => obtain rfl | rfl := hlose <;> exact absurd hi (by decide)
  | ignored _ _ he => exact absurd (hi.symm.trans he) (by decide)
  | _ => exact absurd hi (by decide)

/-- Settles O35: a result leaves phase, buffer and latch, a write leaves the result, and only the first of two writes latches. -/
theorem commandsLeaveTheCacheAlone : Obligations.CommandsLeaveTheCacheAlone := by
  intro i s t hi hl hx
  obtain rfl | ⟨c, info, rfl⟩ | ⟨v, rfl⟩ | ⟨hp, upd, sm, rfl⟩ | ⟨hp, hsched, l, rfl⟩ :=
    (exec_effect i s t hx).command_cases hi hl
  · simp
  · simp
  · simp
  · simp [hp]
  · simp [hp, hsched]

end Sys2Proof.Machine
end

section
/-! PROOFS. Numeric operands and fields read back (41_pack_and_counter.md R120 and R129): what each setter issues when it is accepted,
its operands pass and there is a record. The statements O24 and O26. -/

namespace Sys2Proof.Machine

/-! ### Clamps and buckets (R120, R126) -/

theorem clamp_of_mem {v lo hi : Int} (hlo : lo ≤ v) (hhi : v ≤ hi) : clamp v lo hi = v := by
  rw [clamp, if_neg (Int.not_lt.2 hlo), if_neg (Int.not_lt.2 hhi)]

theorem toNat_clampT2 (v : Int) : ((clampT2 v).toNat : Int) = clamp v 0 200 :=
  toNat_ofInt_clamp v 200 (by decide) (by decide)

theorem toNat_clampHold (v : Int) : ((clampHold v).toNat : Int) = clamp v 0 60 :=
  toNat_ofInt_clamp v 60 (by decide) (by decide)

theorem toNat_clampChime (v : Int) : ((clampChime v).toNat : Int) = clamp v 0 10 :=
  toNat_ofInt_clamp v 10 (by decide) (by decide)

theorem clampAltitude_of_mem {v : Int} (hlo : 0 ≤ v) (hhi : v ≤ 3000) : clampAltitude v = v.toNat :=
  congrArg Int.toNat (clamp_of_mem hlo hhi)

theorem bucketAltitude_of_mod (mode : AltRound) {m : Nat} (h : m % 30 = 0) : bucketAltitude mode m = m := by
  cases mode with
  | floor => exact floor30_of_mod m h
  | nearest => simp only [bucketAltitude, near30, Config.altStep]; omega

/-- The bucket SET_ALTITUDE writes is one that pack leaves as it is. -/
theorem altitudeM_withAltitude_altitudeOperand (r : Record) (mode : AltRound) (v : Int) :
    (r.withAltitude (altitudeOperand mode v)).altitudeM = altitudeOperand mode v := by
  apply BitVec.eq_of_toNat_eq
  have hbucket := (bucketAltitude_le mode _ (clampAltitude_le v)).2
  rw [Record.altitudeM_toNat, Record.raw15_withAltitude, altitudeOperand_toNat, floor30_of_mod _ hbucket]

/-! ### Operand checks that pass (R128) -/

theorem badTime_eq_none {h m : Byte} (hh : h.toNat ≤ 23) (hm : m.toNat ≤ 59) : badTime h m = none := by
  simp [badTime, hourOk, minuteOk, hh, hm]

theorem badClockMode_eq_none {cfg : Config} {h m d : Byte} {x : ClockMode} (hh : h.toNat ≤ 23) (hm : m.toNat ≤ 59)
    (hd : cfg.clockModeCodes.lookup d = some x) : badClockMode cfg h m d = none := by
  simp [badClockMode, badTime_eq_none hh hm, clockModeOf, hd]

theorem badLanguage_eq_none {cfg : Config} {l : Byte} (hl : l ∈ cfg.langSet) : badLanguage cfg l = none :=
  if_pos ((languageOk_iff cfg l).2 hl)

/-! ### The enable buffer (R183) -/

/-- The one enable write holds the request it was given, with the submode in bit 3 of byte 16. -/
theorem enableOne_txb (s : State) (l : Latched) :
    (s.enableOne l).txb.schedT2 = l.t2 ∧ (s.enableOne l).txb.schedMin = l.minute ∧
    (s.enableOne l).txb.schedHour = l.hour ∧ (s.enableOne l).txb.schedMode = if l.submode then .once else .daily := by
  have henabled := updEnable_schedEnabled l s.record
  rw [State.enableOne, State.writeOne_txb]
  obtain ⟨ht2, hmin, hhour, hcounter⟩ := pack_of_enabled s.record s.ctr (updEnable l) l.submode henabled
  have hsubmode : (pack s.record s.ctr (updEnable l) l.submode).schedSubmode = l.submode := by
    rw [Record.schedSubmode, hcounter, withBit3_bit3]
  have hmode : (pack s.record s.ctr (updEnable l) l.submode).schedMode = if l.submode then .once else .daily := by
    rw [Record.schedMode, pack_schedEnabled, henabled, hsubmode, if_pos rfl]
  exact ⟨ht2, hmin, hhour, hmode⟩

/-- The request SET_SCHEDULE makes of its operands when the target is Once (`k = 1`) or Daily (R184). -/
def scheduleRequest (k : BitVec 2) (h m : Byte) (v : Int) : Latched where
  submode := decide (k = 1)
  hour := h
  minute := m
  t2 := clampT2 v

/-! ### What an accepted setter issues -/

section accepted
variable {s : State} (hp : s.phase = .idle) (hr : s.recValid = true)
include hp hr

/-- A single-field setter whose operands pass answers its one write. -/
theorem setField_accepted {bad : Option FieldId} (hb : bad = none) (upd : Record → Record) :
    (.next (s.setField bad upd) : Outcome) = .next (s.writeOne upd s.record.schedSubmode) := by
  rw [hb, setField_writes s upd hp hr]

theorem setTargetTemp_issues (v : Int) : ∃ t, exec (.setTargetTemp v) s = .next t ∧ t.phase = .waitSingle ∧
    (t.txb.targetT2.toNat : Int) = clamp v 0 200 :=
  ⟨_, setField_accepted hp hr rfl _, rfl, by rw [State.writeOne_txb, pack_targetT2, toNat_clampT2]⟩

theorem setHoldTime_issues (v : Int) : ∃ t, exec (.setHoldTime v) s = .next t ∧ t.phase = .waitSingle ∧
    (t.txb.hold.toNat : Int) = clamp v 0 60 :=
  ⟨_, setField_accepted hp hr rfl _, rfl, by rw [State.writeOne_txb, pack_hold, toNat_clampHold]⟩

theorem setChimeVolume_issues (v : Int) : ∃ t, exec (.setChimeVolume v) s = .next t ∧ t.phase = .waitSingle ∧
    (t.txb.chime.toNat : Int) = clamp v 0 10 :=
  ⟨_, setField_accepted hp hr rfl _, rfl, by rw [State.writeOne_txb, pack_chime, toNat_clampChime]⟩

theorem setAltitude_issues (v : Int) : ∃ t, exec (.setAltitude v) s = .next t ∧ t.phase = .waitSingle ∧
    t.txb.Canonical ∧ t.txb.raw15.toNat = bucketAltitude s.cfg.altSetRound (clampAltitude v) := by
  refine ⟨_, setField_accepted hp hr rfl _, rfl, ?_⟩
  rw [State.writeOne_txb, pack_raw15, altitudeM_withAltitude_altitudeOperand, altitudeOperand_toNat]
  exact ⟨pack_canonical .., rfl⟩

theorem setPreBoil_issues (e : Bool) : ∃ t, exec (.setPreBoil e) s = .next t ∧ t.phase = .waitSingle ∧ t.txb.preBoil = e := by
  refine ⟨_, setField_accepted hp hr rfl _, rfl, ?_⟩
  rw [State.writeOne_txb, Record.preBoil, pack_control]
  exact withBit3_bit3 s.record.control e

theorem setClock_issues {h m : Byte} (hh : h.toNat ≤ 23) (hm : m.toNat ≤ 59) : ∃ t, exec (.setClock h m) s = .next t ∧
    t.phase = .waitSingle ∧ t.txb.clockHour = h ∧ t.txb.clockMin = m := by
  refine ⟨_, setField_accepted hp hr (badTime_eq_none hh hm) _, rfl, ?_⟩
  rw [State.writeOne_txb, pack_clockHour, pack_clockMin]
  exact ⟨rfl, rfl⟩

theorem setClockMode_issues {h m d : Byte} {x : ClockMode} (hh : h.toNat ≤ 23) (hm : m.toNat ≤ 59)
    (hd : s.cfg.clockModeCodes.lookup d = some x) : ∃ t, exec (.setClockMode h m d) s = .next t ∧
    t.phase = .waitSingle ∧ t.txb.clockHour = h ∧ t.txb.clockMin = m ∧ t.txb.clockMode = d := by
  refine ⟨_, setField_accepted hp hr (badClockMode_eq_none hh hm hd) _, rfl, ?_⟩
  rw [State.writeOne_txb, pack_clockHour, pack_clockMin, pack_clockMode]
  exact ⟨rfl, rfl, rfl⟩

theorem setLanguage_issues {l : Byte} (hl : l ∈ s.cfg.langSet) : ∃ t, exec (.setLanguage l) s = .next t ∧
    t.phase = .waitSingle ∧ t.txb.language = l := by
  refine ⟨_, setField_accepted hp hr (badLanguage_eq_none hl) _, rfl, ?_⟩
  rw [State.writeOne_txb, pack_language]

/-- An altitude inside the domain is read back as its bucket. -/
theorem setAltitude_reads_back (c : Byte) {v : Int} (hlo : 0 ≤ v) (hhi : v ≤ 3000) : ∃ t, exec (.setAltitude v) s = .next t ∧
    (view s.cfg t.txb c).altitudeM.toNat = bucketAltitude s.cfg.altSetRound v.toNat := by
  obtain ⟨t, hx, -, hcanonical, hraw⟩ := setAltitude_issues hp hr v
  have hview : (view s.cfg t.txb c).altitudeM = t.txb.raw15 := hcanonical.altitudeM_eq_raw15
  exact ⟨t, hx, by rw [hview, hraw, clampAltitude_of_mem hlo hhi]⟩

/-- SET_SCHEDULE to Once or Daily with a good time issues its request at once or latches it (R184). -/
theorem setSchedule_accepted {k : BitVec 2} (hk : k = 1 ∨ k = 2) {h m : Byte} (hh : h.toNat ≤ 23) (hm : m.toNat ≤ 59)
    (v : Int) : ∃ target : SchedMode, target.code = k ∧
      exec (.setSchedule k h m v) s = .next (s.enableOrSwitch target (scheduleRequest k h m v)) := by
  have accepted (u : State) : s.checkOperand (badTime h m) (s.checkRecord u) = u := by
    rw [badTime_eq_none hh hm]
    exact checkRecord_present s u hr
  obtain rfl | rfl := hk
  · exact ⟨.once, rfl, whenReady_accepted hp (accepted _)⟩
  · exact ⟨.daily, rfl, whenReady_accepted hp (accepted _)⟩

theorem setSchedule_enables_or_begins {k : BitVec 2} (hk : k = 1 ∨ k = 2) {h m : Byte} (hh : h.toNat ≤ 23)
    (hm : m.toNat ≤ 59) (v : Int) :
    exec (.setSchedule k h m v) s = .next (s.enableOne (scheduleRequest k h m v)) ∨
    exec (.setSchedule k h m v) s = .next (s.beginTwoStep (scheduleRequest k h m v)) := by
  obtain ⟨target, -, hx⟩ := setSchedule_accepted hp hr hk hh hm v
  rw [hx]
  unfold State.enableOrSwitch
  split
  · exact .inl rfl
  · exact .inr rfl

end accepted

/-- Settles O24: each kind's byte is the clamped operand, and SET_SCHEDULE puts it in byte 6 or in the latch. -/
theorem numericOperandsAreClamped : Obligations.NumericOperandsAreClamped := by
  intro s v hp hr within
  refine ⟨setTargetTemp_issues hp hr v, setHoldTime_issues hp hr v, setChimeVolume_issues hp hr v, ?_, ?_⟩
  · obtain ⟨t, hx, hphase, -, hraw⟩ := setAltitude_issues hp hr v
    exact ⟨t, hx, hphase, congrArg Nat.cast hraw⟩
  · intro k h m hk hh hm
    obtain hx | hx := setSchedule_enables_or_begins hp hr hk hh hm v
    · obtain ⟨ht2, -⟩ := enableOne_txb s (scheduleRequest k h m v)
      have hbyte : ((s.enableOne (scheduleRequest k h m v)).txb.schedT2.toNat : Int) = clamp v 0 200 := by
        rw [ht2]; exact toNat_clampT2 v
      exact ⟨_, hx, .inl ⟨rfl, hbyte⟩⟩
    · exact ⟨_, hx, .inr ⟨rfl, toNat_clampT2 v⟩⟩

/-- The number of the mode that a request of SET_SCHEDULE names is its operand (R71). -/
theorem code_of_scheduleRequest {k : BitVec 2} (hk : k = 1 ∨ k = 2) (h m : Byte) (v : Int) :
    (if (scheduleRequest k h m v).submode then SchedMode.once else .daily).code = k := by
  obtain rfl | rfl := hk <;> rfl

/-- Settles O26: clamps and checks leave a value of the documented domain as it is, and pack leaves the byte that holds it. -/
theorem issuedFieldsRoundTrip : Obligations.IssuedFieldsRoundTrip := by
  intro s c hp hr
  refine ⟨fun v hlo hhi => ?temp, fun v hv => ?hold, fun v hlo hhi => ?chime, fun e => ?preBoil,
    fun v hlo hhi hmod => ?bucket, fun hfloor v hlo hhi => ?floor, fun h m hh hm => ?clock,
    fun h m d x hh hm hd => ?clockMode, fun l hl => ?language, fun k h m v hk hh hm hlo hhi => ?schedule⟩
  case temp =>
    obtain ⟨t, hx, -, ht⟩ := setTargetTemp_issues hp hr v
    exact ⟨t, hx, ht.trans (clamp_of_mem hlo hhi)⟩
  case hold =>
    obtain ⟨hlo, hhi⟩ : 0 ≤ v ∧ v ≤ 60 := (by decide : ∀ v ∈ ([0, 15, 30, 45, 60] : List Int), 0 ≤ v ∧ v ≤ 60) v hv
    obtain ⟨t, hx, -, ht⟩ := setHoldTime_issues hp hr v
    exact ⟨t, hx, ht.trans (clamp_of_mem hlo hhi)⟩
  case chime =>
    obtain ⟨t, hx, -, ht⟩ := setChimeVolume_issues hp hr v
    exact ⟨t, hx, ht.trans (clamp_of_mem hlo hhi)⟩
  case preBoil =>
    obtain ⟨t, hx, -, ht⟩ := setPreBoil_issues hp hr e
    exact ⟨t, hx, ht⟩
  case bucket =>
    obtain ⟨t, hx, ht⟩ := setAltitude_reads_back hp hr c hlo hhi
    refine ⟨t, hx, ?_⟩
    rw [ht, bucketAltitude_of_mod _ (by omega), Int.toNat_of_nonneg hlo]
  case floor =>
    obtain ⟨t, hx, ht⟩ := setAltitude_reads_back hp hr c hlo hhi
    refine ⟨t, hx, ?_⟩
    rw [ht, hfloor, bucketAltitude, floor30_spec]
    omega
  case clock =>
    obtain ⟨t, hx, -, ht⟩ := setClock_issues hp hr hh hm
    exact ⟨t, hx, ht⟩
  case clockMode =>
    obtain ⟨t, hx, -, hhour, hmin, hmode⟩ := setClockMode_issues hp hr hh hm hd
    have hknown : clockModeView s.cfg t.txb.clockMode = .known x := by rw [hmode, clockModeView_known hd]
    exact ⟨t, hx, hhour, hmin, hknown⟩
  case language =>
    obtain ⟨t, hx, -, ht⟩ := setLanguage_issues hp hr hl
    have hknown : languageOk s.cfg t.txb.language = true := by rw [ht, languageOk_iff]; exact hl
    exact ⟨t, hx, ht, hknown⟩
  case schedule =>
    obtain hx | hx := setSchedule_enables_or_begins hp hr hk hh hm v
    · obtain ⟨ht2, hmin, hhour, hmode⟩ := enableOne_txb s (scheduleRequest k h m v)
      have hbyte : ((s.enableOne (scheduleRequest k h m v)).txb.schedT2.toNat : Int) = v := by
        rw [ht2]; exact (toNat_clampT2 v).trans (clamp_of_mem hlo hhi)
      have hcode : (s.enableOne (scheduleRequest k h m v)).txb.schedMode.code = k := by
        rw [hmode]; exact code_of_scheduleRequest hk h m v
      exact ⟨_, hx, fun _ => ⟨hhour, hmin, hbyte, hcode⟩⟩
    · exact ⟨_, hx, nofun⟩

end Sys2Proof.Machine
end

section
/-! PROOFS. The single-field setters in full (42_setters.md R150 to R156): which operand is rejected, and the one write of the bytes
that the rule names. The statements O27 to O33. -/

namespace Sys2Proof.Machine

/-! ### The altitude bytes of an update (R61, R154) -/

/-- An altitude below 2^15 leaves bit 7 of the high byte to the marker. -/
theorem toNat_marker_or {n : Nat} (h : n < 2 ^ 15) : ((0x80 : Byte) ||| BitVec.ofNat 8 (n / 256)).toNat = 128 + n / 256 := by
  have hmarker : 128 + n / 256 = 128 ||| n / 256 := Nat.two_pow_add_eq_or_of_lt (i := 7) (by omega) 1
  have hfits : n / 256 % 2 ^ 8 = n / 256 := Nat.mod_eq_of_lt (by omega)
  rw [hmarker, BitVec.toNat_or, BitVec.toNat_ofNat (n / 256), hfits]
  rfl

theorem Record.withAltitude_eq_setByte (r : Record) (a : BitVec 15) : r.withAltitude a =
    (r.setByte 2 (BitVec.ofNat 8 a.toNat)).setByte 3 (0x80 ||| BitVec.ofNat 8 (a.toNat / 256)) := by
  have hlow : (r.withAltitude a).altLo = BitVec.ofNat 8 a.toNat :=
    BitVec.eq_of_toNat_eq (by rw [toNat_altLo_withAltitude, BitVec.toNat_ofNat])
  have hhigh : (r.withAltitude a).altHi = 0x80 ||| BitVec.ofNat 8 (a.toNat / 256) :=
    BitVec.eq_of_toNat_eq (by rw [toNat_altHi_withAltitude, toNat_marker_or a.isLt])
  rw [← hlow, ← hhigh]
  rfl

/-- SET_ALTITUDE with its update written byte by byte. -/
theorem exec_setAltitude (v : Int) (s : State) :
    let q := bucketAltitude s.cfg.altSetRound (clampAltitude v)
    exec (.setAltitude v) s = .next (s.setField none fun r =>
      (r.setByte 2 (BitVec.ofNat 8 q)).setByte 3 (0x80 ||| BitVec.ofNat 8 (q / 256))) := by
  simp only [← altitudeOperand_toNat, ← Record.withAltitude_eq_setByte]
  rfl

/-! ### Operand checks that fail (R155, R156, R249) -/

theorem badTime_of_hour {h : Byte} (hh : 23 < h.toNat) (m : Byte) : badTime h m = some .hour := by
  simp [badTime, hourOk, hh]

theorem badTime_of_minute {h m : Byte} (hh : h.toNat ≤ 23) (hm : 59 < m.toNat) : badTime h m = some .minute := by
  simp [badTime, hourOk, minuteOk, hh, hm]

theorem badClockMode_of_badTime {h m : Byte} {f : FieldId} (hf : badTime h m = some f) (cfg : Config) (d : Byte) :
    badClockMode cfg h m d = some f := by
  rw [badClockMode, hf]

theorem badClockMode_of_unknown {cfg : Config} {h m d : Byte} (hh : h.toNat ≤ 23) (hm : m.toNat ≤ 59)
    (hd : cfg.clockModeCodes.lookup d = none) : badClockMode cfg h m d = some .clockMode := by
  simp [badClockMode, badTime_eq_none hh hm, clockModeOf, hd]

theorem badLanguage_of_not_mem {cfg : Config} {l : Byte} (hl : l ∉ cfg.langSet) : badLanguage cfg l = some .language :=
  if_neg (hl ∘ (languageOk_iff cfg l).1)

/-! ### What a setter answers (R128) -/

section setField
variable {s : State} {bad : Option FieldId}

theorem setField_rejected (hp : s.phase = .idle) {f : FieldId} (hb : bad = some f) (upd : Record → Record) :
    (.next (s.setField bad upd) : Outcome) = .next (s.withError 0x02 f.info) :=
  congrArg _ (hb ▸ setField_bad s f upd hp)

theorem setField_held (hp : s.phase ≠ .idle) (upd : Record → Record) : (.next (s.setField bad upd) : Outcome) = .next s :=
  congrArg _ (setField_busy s bad upd hp)

theorem setField_notConnected (hp : s.phase = .idle) (hr : s.recValid = false) (hb : bad = none) (upd : Record → Record) :
    (.next (s.setField bad upd) : Outcome) = .next (s.withError 0x01 0x00) :=
  congrArg _ (hb ▸ setField_absent s upd hp hr)

/-- The three answers of a setter whose operands pass: held, NotConnected, or its one write. -/
theorem setField_passed (hb : bad = none) (upd : Record → Record) :
    (s.phase ≠ .idle → (.next (s.setField bad upd) : Outcome) = .next s) ∧
    (s.phase = .idle → s.recValid = false → (.next (s.setField bad upd) : Outcome) = .next (s.withError 0x01 0x00)) ∧
    (s.phase = .idle → s.recValid = true → (.next (s.setField bad upd) : Outcome) =
      .next (s.withWrite (pack s.record s.ctr upd (bitOf (s.record.byte 16) 3)) .waitSingle)) :=
  ⟨fun hp => setField_held hp upd, fun hp hr => setField_notConnected hp hr hb upd, fun hp hr => setField_accepted hp hr hb upd⟩

end setField

/-- An instruction that is a setter whose operands pass in every state writes its one field. -/
theorem writesOneField_of_setField {i : Instr} {bad : Option FieldId} {upd : State → Record → Record} (hb : bad = none)
    (hx : ∀ s, exec i s = .next (s.setField bad (upd s))) : WritesOneField i upd := by
  intro s
  rw [hx s]
  exact setField_passed hb (upd s)

/-- Settles O31: the two altitude bytes are those of the bucket that `bucketAltitude` gives the clamped operand. -/
theorem setAltitudeWritesTheBucket : Obligations.SetAltitudeWritesTheBucket := fun v =>
  writesOneField_of_setField rfl (exec_setAltitude v)

/-- Settles O32: by the first bad operand, if any; the two forms share the checks of the time. -/
theorem setClockChecksThenWritesTheClockBytes : Obligations.SetClockChecksThenWritesTheClockBytes := by
  intro h m
  refine ⟨fun s hp hh => ?hour, fun s hp hh hm => ?minute, fun s d hp hh hm hd => ?mode, fun hh hm => ?written,
    fun s d hh hm hd => ?writtenWithMode⟩
  case hour =>
    have hbad := badTime_of_hour hh m
    exact ⟨setField_rejected hp hbad _, fun d => setField_rejected hp (badClockMode_of_badTime hbad s.cfg d) _⟩
  case minute =>
    have hbad := badTime_of_minute hh hm
    exact ⟨setField_rejected hp hbad _, fun d => setField_rejected hp (badClockMode_of_badTime hbad s.cfg d) _⟩
  case mode => exact setField_rejected hp (badClockMode_of_unknown hh hm hd) _
  case written => exact writesOneField_of_setField (badTime_eq_none hh hm) fun _ => rfl
  case writtenWithMode =>
    obtain ⟨x, hx⟩ := Option.isSome_iff_exists.1 hd
    exact setField_passed (badClockMode_eq_none hh hm hx) _

/-- Settles O33: by phase, by membership of the code in `LANG_SET`, and by the presence of the record. -/
theorem setLanguageChecksThenWritesByte15 : Obligations.SetLanguageChecksThenWritesByte15 := fun _ _ =>
  ⟨fun hp => setField_held hp _,
    fun hp hl => setField_rejected hp (badLanguage_of_not_mem hl) _,
    fun hp hl hr => setField_notConnected hp hr (badLanguage_eq_none hl) _,
    fun hp hl hr => setField_accepted hp hr (badLanguage_eq_none hl) _⟩

/-- Settles O27: the update is the write of byte 4. -/
theorem setTargetTempWritesByte4 : Obligations.SetTargetTempWritesByte4 := fun _ =>
  writesOneField_of_setField rfl fun _ => rfl

/-- Settles O28: the update is the write of byte 13. -/
theorem setHoldTimeWritesByte13 : Obligations.SetHoldTimeWritesByte13 := fun _ =>
  writesOneField_of_setField rfl fun _ => rfl

/-- Settles O29: the update is the write of byte 14. -/
theorem setChimeVolumeWritesByte14 : Obligations.SetChimeVolumeWritesByte14 := fun _ =>
  writesOneField_of_setField rfl fun _ => rfl

/-- Settles O30: `setPreBoil` is the write of byte 1 with bit 3 replaced. -/
theorem setPreBoilWritesBit3OfByte1 : Obligations.SetPreBoilWritesBit3OfByte1 := fun _ =>
  writesOneField_of_setField rfl fun _ => rfl

end Sys2Proof.Machine
end

section
/-! PROOFS. The schedule commands in full (43_schedule.md R182 to R185): which operand is rejected, which writes a request takes, and
the bytes of a disable and of an enable buffer. The statements O36, O37 and O38. -/

namespace Sys2Proof.Machine

/-! ### The checks of SET_SCHEDULE (R184) -/

theorem badSchedule_of_active {k : BitVec 2} (hk : k = 1 ∨ k = 2) (h m : Byte) : badSchedule k h m = badTime h m := by
  obtain rfl | rfl := hk <;> rfl

/-- A request that is Off, or active with a good time, passes the operand checks. -/
theorem badSchedule_eq_none {k : BitVec 2} {h m : Byte} (hgood : k = 0 ∨ ((k = 1 ∨ k = 2) ∧ h.toNat ≤ 23 ∧ m.toNat ≤ 59)) :
    badSchedule k h m = none := by
  obtain rfl | ⟨hk, hh, hm⟩ := hgood
  · rfl
  · rw [badSchedule_of_active hk, badTime_eq_none hh hm]

theorem SchedMode.code_injective : Function.Injective SchedMode.code := by
  intro a b
  cases a <;> cases b <;> decide

/-! ### What SET_SCHEDULE and DISABLE_SCHEDULE answer (R128, R184, R185) -/

section answers
variable {s : State} {k : BitVec 2} {h m : Byte} (v : Int)

theorem setSchedule_held (hp : s.phase ≠ .idle) : exec (.setSchedule k h m v) s = .next s := whenReady_held hp

theorem setSchedule_rejected (hp : s.phase = .idle) {f : FieldId} (hb : badSchedule k h m = some f) :
    exec (.setSchedule k h m v) s = .next (s.withError 0x02 f.info) :=
  whenReady_accepted hp (by rw [hb]; rfl)

theorem setSchedule_notConnected (hp : s.phase = .idle) (hr : s.recValid = false) (hb : badSchedule k h m = none) :
    exec (.setSchedule k h m v) s = .next (s.withError 0x01 0x00) :=
  whenReady_accepted hp (by rw [hb]; exact checkRecord_absent s _ hr)

theorem disableSchedule_writes (hp : s.phase = .idle) (hr : s.recValid = true) :
    exec .disableSchedule s = .next s.disableOne :=
  whenReady_accepted hp (checkRecord_present s _ hr)

/-- Both commands hand the same body to the same checks. -/
theorem setSchedule_off_eq_disableSchedule : exec (.setSchedule 0 h m v) s = exec .disableSchedule s := rfl

section active
variable (hp : s.phase = .idle) (hr : s.recValid = true) (hk : k = 1 ∨ k = 2) (hh : h.toNat ≤ 23) (hm : m.toNat ≤ 59)
include hp hr hk hh hm

/-- With the schedule off or in the target mode already, one write makes the change (R181). -/
theorem setSchedule_enables (hmode : s.record.schedMode = .off ∨ s.record.schedMode.code = k) :
    exec (.setSchedule k h m v) s = .next (s.enableOne (scheduleRequest k h m v)) := by
  obtain ⟨target, rfl, hx⟩ := setSchedule_accepted hp hr hk hh hm v
  rw [hx, State.enableOrSwitch, if_pos (hmode.imp_right (SchedMode.code_injective ·))]

/-- With the schedule in the other active mode, the change begins with its disable write (R181, R186). -/
theorem setSchedule_begins (hoff : s.record.schedMode ≠ .off) (hother : s.record.schedMode.code ≠ k) :
    exec (.setSchedule k h m v) s = .next (s.beginTwoStep (scheduleRequest k h m v)) := by
  obtain ⟨target, rfl, hx⟩ := setSchedule_accepted hp hr hk hh hm v
  have hnot : ¬(s.record.schedMode = .off ∨ s.record.schedMode = target) :=
    not_or.2 ⟨hoff, fun he => hother (congrArg _ he)⟩
  rw [hx, State.enableOrSwitch, if_neg hnot]

end active

end answers

/-- Settles O36: by phase, by the first bad operand, by the presence of the record, and by the mode the record is in. -/
theorem setScheduleIssuesOneWriteOrTwo : Obligations.SetScheduleIssuesOneWriteOrTwo := by
  intro s k h m v dis t2 once en
  refine ⟨setSchedule_held v, fun hp hk => ?mode, fun hp hk hh => ?hour, fun hp hk hh hm => ?minute,
    fun hp hgood hr => setSchedule_notConnected v hp hr (badSchedule_eq_none hgood), fun hp hr hk => ?off,
    fun hp hr hk hh hm => ⟨setSchedule_enables v hp hr hk hh hm, setSchedule_begins v hp hr hk hh hm⟩⟩
  case mode => exact setSchedule_rejected v hp (f := .scheduleMode) (by rw [hk]; rfl)
  case hour => exact setSchedule_rejected v hp ((badSchedule_of_active hk h m).trans (badTime_of_hour hh m))
  case minute => exact setSchedule_rejected v hp ((badSchedule_of_active hk h m).trans (badTime_of_minute hh hm))
  case off => rw [hk]; exact disableSchedule_writes hp hr

/-- Settles O38: the body is SET_SCHEDULE's for the target Off, and it is held, NotConnected or the disable write. -/
theorem disableScheduleIsSetScheduleOff : Obligations.DisableScheduleIsSetScheduleOff := fun _ =>
  ⟨fun _ _ v => (setSchedule_off_eq_disableSchedule v).symm,
    whenReady_held, fun hp hr => whenReady_accepted hp (checkRecord_absent _ _ hr), disableSchedule_writes⟩

/-! ### The two buffers (R182, R183) -/

/-- The update of a request of SET_SCHEDULE, byte by byte (R183). -/
theorem updEnable_scheduleRequest (k : BitVec 2) (h m : Byte) (v : Int) : updEnable (scheduleRequest k h m v) = fun r =>
    (((r.setByte 0 (r.byte 0 ||| 0x08)).setByte 6 (BitVec.ofInt 8 (clamp v 0 200))).setByte 8 m).setByte 9 h := rfl

theorem pack_updDisable_schedMode (r : Record) (c : Byte) (sm : Bool) : (pack r c updDisable sm).schedMode = .off :=
  Record.schedMode_of_disabled ((pack_schedEnabled ..).trans (updDisable_schedEnabled r))

/-- Any block that holds the record and the counter issues this buffer. -/
theorem pack_updEnable_schedMode (r : Record) (c : Byte) (l : Latched) :
    (pack r c (updEnable l) l.submode).schedMode = if l.submode then .once else .daily := by
  obtain ⟨-, -, -, hmode⟩ := enableOne_txb { State.reset with record := r, ctr := c } l
  exact hmode

/-- The bytes that neither an update of the schedule nor pack itself writes are the record's (R24, R121). -/
theorem pack_byte_of_leavesAlone {r : Record} {upd : Record → Record} (hupd : LeavesAlone [0, 6, 8, 9] r (upd r)) (c : Byte)
    (sm : Bool) {j : Fin 17} (hj : j ∈ ([1, 4, 5, 7, 10, 11, 12, 13, 14, 15] : List (Fin 17))) :
    (pack r c upd sm).byte j = r.byte j := by
  have houtside : ∀ j ∈ ([1, 4, 5, 7, 10, 11, 12, 13, 14, 15] : List (Fin 17)),
      j ∉ ([0, 6, 8, 9] : List (Fin 17)) ∧ j ∉ alwaysPacked := by decide
  obtain ⟨hown, hpacked⟩ := houtside j hj
  exact (pack_byte r c upd sm hpacked).trans (hupd j hown)

/-- Settles O37: bit 3 of byte 0 decides what pack makes of bytes 6, 8, 9 and 16, and the rest is carried. -/
theorem disableAndEnableBuffers : Obligations.DisableAndEnableBuffers := by
  intro r c t m h sm dis en
  let l : Latched := { submode := sm, hour := h, minute := m, t2 := t }
  obtain ⟨hdT2, hdMin, hdHour, hdCounter⟩ := pack_of_disabled r c updDisable false (updDisable_schedEnabled r)
  obtain ⟨heT2, heMin, heHour, heCounter⟩ := pack_of_enabled r c (updEnable l) sm (updEnable_schedEnabled l r)
  refine ⟨pack_status .., hdT2, hdMin, hdHour, hdCounter, pack_status .., heT2, heMin, heHour, heCounter,
    pack_updDisable_schedMode r c false, pack_updEnable_schedMode r c l, fun j hj => ⟨?disable, ?enable⟩⟩
  case disable => exact pack_byte_of_leavesAlone ((updDisable_leavesAlone r).mono (by simp)) c false hj
  case enable => exact pack_byte_of_leavesAlone (updEnable_leavesAlone l r) c sm hj

end Sys2Proof.Machine
end

section
/-! PROOFS. A change between Once and Daily from its command to its result (43_schedule.md R186, 44_write_protocol.md R211 and R214).
A block that agents drive by a list of words answers each word as `exec` does and is then driven by the rest of the list, so the
run is one equation per stage. The statement O39. -/

namespace Sys2Proof.Machine

/-! ### A driven block (log entry 2) -/

section driven
variable {s u : State} {x : PortWord} {ws : List PortWord}

/-- A driven block takes the first word of its list. -/
theorem State.take_driven : (s.driven (x :: ws)).take = .ofDecoded (decode x) := by
  cases x with
  | cmd w => exact State.take_of_command _ w rfl rfl rfl
  | ev c => exact State.take_of_event _ c rfl rfl

theorem Ports.silent_presenting_silent (p : Ports) (x : PortWord) : (p.silent.presenting x).silent = p.silent := by
  cases x <;> rfl

/-- After a step the agents go on with the rest of the list. -/
theorem State.advance_driven : (s.driven (x :: ws)).advance = s.driven ws := by
  cases ws with
  | nil =>
    have hsilent : (s.driven [x]).ports.silent = s.ports.silent := s.ports.silent_presenting_silent x
    rw [State.advance_of_env_nil _ rfl, hsilent]
    rfl
  | cons y ys => exact State.advance_of_env_cons _ _ _ rfl

/-- The step of a driven block, if the word is an instruction's and its answer leaves the ports alone. -/
theorem step_driven {i : Instr} (hwf : i.wf = true)
    (hx : exec i (s.driven (encode i :: ws)).lowerStrobes = .next (u.driven (encode i :: ws))) :
    step (s.driven (encode i :: ws)) = .next (u.driven ws) := by
  have htake : (s.driven (encode i :: ws)).take = .run i := by
    rw [State.take_driven, decodeOfEncodeIsTheInstruction i hwf, Taken.ofDecoded]
  rw [step_of_take_run _ _ i htake hx, State.advance_driven]

end driven

/-! ### Runs -/

theorem runSteps_succ {s t : State} (h : step s = .next t) (n : Nat) : runSteps (n + 1) s = runSteps n t := by
  rw [runSteps, h]

theorem runSteps_trans {a b : Nat} {s t u : State} (hfirst : runSteps a s = .next t) (hrest : runSteps b t = .next u) :
    runSteps (a + b) s = .next u := by
  induction a generalizing s with
  | zero =>
    obtain rfl : s = t := by injection hfirst
    rwa [Nat.zero_add]
  | succ a ih =>
    rw [runSteps] at hfirst
    rw [Nat.succ_add, runSteps]
    cases hs : step s with
    | next s' => rw [hs] at hfirst; exact ih hfirst
    | fault r => rw [hs] at hfirst; exact absurd hfirst nofun
    | refused r => rw [hs] at hfirst; exact absurd hfirst nofun

/-! ### Acknowledgments and ticks (R211, R214) -/

section events
variable {s : State}

theorem exec_wrAck_waitStep1 (hp : s.phase = .waitStep1) : exec .wrAck s = .next s.commit.startSettle := by
  simp only [exec, execWrAck, hp]

theorem exec_wrAck_waitStep3 (hp : s.phase = .waitStep3) :
    exec .wrAck s = .next (s.commit.toPhase .idle).completeWithRecord := by
  simp only [exec, execWrAck, hp]

theorem exec_tick_settle (hp : s.phase = .settle) : exec .tick s = .next s.settleTick := by
  simp only [exec, execTick, hp]

/-- A tick that is not the last counts down. -/
theorem exec_tick_counts (hp : s.phase = .settle) {c : Nat} (hc : c + 2 ≤ 65535) (hcnt : s.settleCnt = BitVec.ofNat 16 (c + 2)) :
    exec .tick s = .next { s with settleCnt := BitVec.ofNat 16 (c + 1) } := by
  have hnext : s.settleCnt - 1 = BitVec.ofNat 16 (c + 1) := by rw [hcnt]; bv_omega
  have hgoing : s.settleCnt - 1 ≠ 0 := by rw [hnext]; bv_omega
  have htick : s.settleTick = { s with settleCnt := s.settleCnt - 1 } := if_neg hgoing
  rw [exec_tick_settle hp, htick, hnext]

/-- The last tick issues step (3). -/
theorem exec_tick_issues (hp : s.phase = .settle) (hcnt : s.settleCnt = 1) :
    exec .tick s = .next { s with settleCnt := 0 }.issueStep3 := by
  have hlast : s.settleCnt - 1 = 0 := by rw [hcnt]; rfl
  have htick : s.settleTick = { s with settleCnt := s.settleCnt - 1 }.issueStep3 := if_pos hlast
  rw [exec_tick_settle hp, htick, hlast]

end events

/-! ### The settle delay of a driven block (R214) -/

/-- The block in the settle delay with `c` ticks to go and no strobe raised. -/
def State.settling (s : State) (c : Nat) : State :=
  { s.lowerStrobes with settleCnt := BitVec.ofNat 16 c, phase := .settle }

section settling
variable (s : State) (ws : List PortWord)

theorem State.settling_settleCnt_toNat {c : Nat} (hc : c ≤ 65535) : (s.settling c).settleCnt.toNat = c :=
  Nat.mod_eq_of_lt (by omega)

theorem step_settling {c : Nat} (hc : c + 2 ≤ 65535) :
    step ((s.settling (c + 2)).driven (encode .tick :: ws)) = .next ((s.settling (c + 1)).driven ws) :=
  step_driven rfl (exec_tick_counts rfl hc rfl)

theorem step_settling_last :
    step ((s.settling 1).driven (encode .tick :: ws)) = .next ((s.settling 0).issueStep3.driven ws) :=
  step_driven rfl (exec_tick_issues rfl rfl)

/-- Before the last tick the block only counts. -/
theorem runSteps_settling (j : Nat) {c : Nat} (hc : j + (c + 1) ≤ 65535) :
    runSteps j ((s.settling (j + (c + 1))).driven (List.replicate j (encode .tick) ++ ws)) =
      .next ((s.settling (c + 1)).driven ws) := by
  induction j with
  | zero => rw [Nat.zero_add]; rfl
  | succ j ih =>
    have hstep := step_settling s (List.replicate j (encode .tick) ++ ws) (c := j + c) (by omega)
    rw [show j + 1 + (c + 1) = j + c + 2 by omega]
    exact (runSteps_succ hstep j).trans (ih (by omega))

end settling

/-! ### The stages of a two-step change (R186) -/

/-- The words agents present in a two-step change after its command: the acknowledgment, `n` ticks, the acknowledgment. -/
def twoStepAnswers (n : Nat) : List PortWord := encode .wrAck :: (List.replicate n (encode .tick) ++ [encode .wrAck])

/-- The block that has issued the disable write of the request. -/
def State.afterStep1Issued (s : State) (l : Latched) : State := s.lowerStrobes.beginTwoStep l

/-- The block in the settle delay over the committed disable buffer, with `c` ticks to go. -/
def State.inSettle (s : State) (l : Latched) (c : Nat) : State := (s.afterStep1Issued l).commit.settling c

/-- The block that has issued the enable write. -/
def State.afterStep3Issued (s : State) (l : Latched) : State := (s.inSettle l 0).issueStep3

/-- The block that has committed the enable write and answered. -/
def State.afterTwoSteps (s : State) (l : Latched) : State :=
  ((s.afterStep3Issued l).lowerStrobes.commit.toPhase .idle).completeWithRecord

/-- SET_SCHEDULE with good operands, from the other active mode, is the first stage. -/
theorem step_setSchedule_begins {s : State} {k : BitVec 2} {h m : Byte} {v : Int} (hp : s.phase = .idle) (hr : s.recValid = true)
    (hk : k = 1 ∨ k = 2) (hh : h.toNat ≤ 23) (hm : m.toNat ≤ 59) (hoff : s.record.schedMode ≠ .off)
    (hother : s.record.schedMode.code ≠ k) (hv : fitsA16 v = true) (ws : List PortWord) :
    step (s.driven (encode (.setSchedule k h m v) :: ws)) = .next ((s.afterStep1Issued (scheduleRequest k h m v)).driven ws) :=
  step_driven hv (setSchedule_begins v hp hr hk hh hm hoff hother)

section stages
variable {s start : State} {l : Latched}
  (hstart : step start = .next ((s.afterStep1Issued l).driven (twoStepAnswers s.cfg.settleTicks)))
include hstart

theorem runSteps_inSettle {j c : Nat} (hn : s.cfg.settleTicks = j + (c + 1)) (hlegal : s.cfg.Legal) :
    runSteps (2 + j) start = .next ((s.inSettle l (c + 1)).driven (List.replicate (c + 1) (encode .tick) ++ [encode .wrAck])) := by
  have hack : step ((s.afterStep1Issued l).driven (twoStepAnswers s.cfg.settleTicks)) = .next
      ((s.inSettle l s.cfg.settleTicks).driven (List.replicate s.cfg.settleTicks (encode .tick) ++ [encode .wrAck])) :=
    step_driven rfl (exec_wrAck_waitStep1 rfl)
  have hticks := runSteps_settling (s.afterStep1Issued l).commit
    (List.replicate (c + 1) (encode .tick) ++ [encode .wrAck]) j (c := c) (hn ▸ hlegal.2)
  rw [← List.append_assoc, List.replicate_append_replicate, ← hn] at hticks
  exact runSteps_trans ((runSteps_succ hstart 1).trans (runSteps_succ hack 0)) hticks

theorem runSteps_afterStep3Issued (hlegal : s.cfg.Legal) :
    runSteps (2 + s.cfg.settleTicks) start = .next ((s.afterStep3Issued l).driven [encode .wrAck]) := by
  obtain ⟨j, hn⟩ := Nat.exists_eq_add_of_le' hlegal.1
  have hlast : runSteps 1 ((s.inSettle l 1).driven [encode .tick, encode .wrAck]) =
      .next ((s.afterStep3Issued l).driven [encode .wrAck]) := runSteps_succ (step_settling_last _ _) 0
  have hrun := runSteps_trans (runSteps_inSettle hstart (c := 0) hn hlegal) hlast
  rwa [Nat.add_assoc, ← hn] at hrun

theorem runSteps_afterTwoSteps (hlegal : s.cfg.Legal) :
    runSteps (3 + s.cfg.settleTicks) start = .next ((s.afterTwoSteps l).driven []) := by
  have hack : step ((s.afterStep3Issued l).driven [encode .wrAck]) = .next ((s.afterTwoSteps l).driven []) :=
    step_driven rfl (exec_wrAck_waitStep3 rfl)
  have hrun := runSteps_trans (runSteps_afterStep3Issued hstart hlegal) (runSteps_succ hack 0)
  rwa [Nat.add_right_comm] at hrun

end stages

/-- The enable write is built from the committed disable buffer and its counter (R186, R215). -/
theorem afterStep3Issued_txb (s : State) (l : Latched) : (s.afterStep3Issued l).txb =
    pack (s.afterStep1Issued l).txb (nextCtr s.cfg.ctrFeedback s.ctr (s.afterStep1Issued l).txb) (updEnable l) l.submode := rfl

/-- With LOGICAL feedback each of the two commits adds one (R215). -/
theorem afterTwoSteps_ctr {s : State} (l : Latched) (hlogical : s.cfg.ctrFeedback = .logical) :
    (s.afterTwoSteps l).ctr = s.ctr + 2 := by
  have hctr : (s.afterTwoSteps l).ctr =
      nextCtr s.cfg.ctrFeedback (nextCtr s.cfg.ctrFeedback s.ctr (s.afterStep1Issued l).txb) (s.afterStep3Issued l).txb := rfl
  rw [hctr, hlogical, nextCtr, nextCtr, BitVec.add_assoc]
  rfl

theorem afterTwoSteps_schedMode (s : State) (l : Latched) :
    (s.afterTwoSteps l).record.schedMode = if l.submode then .once else .daily :=
  pack_updEnable_schedMode _ _ l

/-- Settles O39: the run is the four stages above, and each clause reads the registers of one stage. -/
theorem twoStepChangeRunsToCompletion : Obligations.TwoStepChangeRunsToCompletion := by
  intro s k h m v hlegal hp hr hmode hh hm hv n start dis en
  obtain ⟨hk, hoff, hother⟩ : (k = 1 ∨ k = 2) ∧ s.record.schedMode ≠ .off ∧ s.record.schedMode.code ≠ k := by
    obtain ⟨rfl, hmode⟩ | ⟨rfl, hmode⟩ := hmode <;> rw [hmode] <;> decide
  have hstart : step start = .next ((s.afterStep1Issued (scheduleRequest k h m v)).driven (twoStepAnswers n)) :=
    step_setSchedule_begins hp hr hk hh hm hoff hother hv (twoStepAnswers n)
  -- the statement's buffers become those of the stages, so that no clause below unfolds a pack
  have hdis : dis = (s.afterStep1Issued (scheduleRequest k h m v)).txb := rfl
  clear_value start dis
  subst hdis
  have hen : en = (s.afterStep3Issued (scheduleRequest k h m v)).txb := by
    rw [afterStep3Issued_txb, updEnable_scheduleRequest]
    rfl
  clear_value en
  subst hen
  refine ⟨⟨_, runSteps_succ hstart 0, rfl, rfl, rfl⟩, fun j hj => ?settle,
    ⟨_, runSteps_afterStep3Issued hstart hlegal, rfl, rfl, rfl⟩, ?done⟩
  case settle =>
    have hwidth : n ≤ 65535 := hlegal.2
    obtain ⟨c, hn⟩ : ∃ c, n = j + (c + 1) := ⟨n - j - 1, by omega⟩
    have hcnt : ((s.inSettle (scheduleRequest k h m v) (c + 1)).settleCnt).toNat = n - j :=
      (State.settling_settleCnt_toNat _ (by omega)).trans (by omega)
    exact ⟨_, runSteps_inSettle hstart hn hlegal, rfl, rfl, hr, hcnt, rfl, rfl⟩
  case done =>
    have hcode : (s.afterTwoSteps (scheduleRequest k h m v)).record.schedMode.code = k := by
      rw [afterTwoSteps_schedMode, code_of_scheduleRequest hk]
    exact ⟨_, runSteps_afterTwoSteps hstart hlegal, rfl, rfl, hr, rfl, rfl, rfl, rfl, hcode, afterTwoSteps_ctr _⟩

end Sys2Proof.Machine
end

section
/-! PROOFS. The events phase by phase (44_write_protocol.md sections 2 and 3), and the settle delay as a run of ticks. The statements
O40, O41, O42, O43 and O44. -/

namespace Sys2Proof.Machine

/-! ### Each event's answer by phase (R210) -/

section answers
variable {s : State}

/-- The acknowledgment of the only or of the last write is a commit and the result (R211). -/
theorem exec_wrAck_completes (hp : s.phase = .waitSingle ∨ s.phase = .waitStep3) :
    exec .wrAck s = .next (s.commit.toPhase .idle).completeWithRecord := by
  obtain hp | hp := hp
  · simp only [exec, execWrAck, hp]
  · exact exec_wrAck_waitStep3 hp

/-- Where no write is in flight an acknowledgment is ignored (R211). -/
theorem exec_wrAck_ignored (hp : s.phase = .idle ∨ s.phase = .settle) : exec .wrAck s = .next s := by
  obtain hp | hp := hp <;> simp only [exec, execWrAck, hp]

/-- WR_FAIL and INVALIDATE have one meaning (R213). -/
theorem exec_of_loses {i : Instr} (hi : i = .wrFail ∨ i = .invalidate) : exec i s = .next s.loseSession := by
  obtain rfl | rfl := hi <;> rfl

theorem loseSession_of_first_write (hp : s.phase = .waitSingle ∨ s.phase = .waitStep1) :
    s.loseSession = (s.discard.toPhase .idle).raise .transportFailure 0x00 := by
  obtain hp | hp := hp <;> simp only [State.loseSession, hp]

theorem loseSession_of_partial_change (hp : s.phase = .settle ∨ s.phase = .waitStep3) :
    s.loseSession = (s.discard.toPhase .idle).raise .scheduleTransitionPartial 0x83 := by
  obtain hp | hp := hp <;> simp only [State.loseSession, hp]

theorem loseSession_of_idle (hp : s.phase = .idle) : s.loseSession = s.discard := by
  simp only [State.loseSession, hp]

theorem exec_tick_ignored (hp : s.phase ≠ .settle) : exec .tick s = .next s := by
  cases hphase : s.phase with
  | settle => exact absurd hphase hp
  | idle | waitSingle | waitStep1 | waitStep3 => simp only [exec, execTick, hphase]

theorem settleTick_of_last (hn : s.settleCnt - 1 = 0) :
    s.settleTick = { s with settleCnt := s.settleCnt - 1 }.issueStep3 := if_pos hn

theorem settleTick_of_counting (hn : s.settleCnt - 1 ≠ 0) : s.settleTick = { s with settleCnt := s.settleCnt - 1 } :=
  if_neg hn

theorem exec_reserved {i : Instr} (hi : i = .evReserved0 ∨ i = .evReserved5 ∨ i = .evReserved6 ∨ i = .evReserved7) :
    exec i s = .next s := by
  obtain rfl | rfl | rfl | rfl := hi <;> rfl

end answers

/-- Event codes 0, 5, 6 and 7 name the reserved events (R220). -/
theorem decodeEvent_reserved {c : EvCode} (hc : c = 0 ∨ c = 5 ∨ c = 6 ∨ c = 7) :
    decodeEvent c = .evReserved0 ∨ decodeEvent c = .evReserved5 ∨ decodeEvent c = .evReserved6 ∨
      decodeEvent c = .evReserved7 := by
  obtain rfl | rfl | rfl | rfl := hc <;> decide

/-- Settles O40: the two ways a commit goes on, and the two phases with no write in flight; the statement writes out `nextCtr`. -/
theorem wrAckCommits : Obligations.WrAckCommits := fun _ =>
  ⟨exec_wrAck_completes, exec_wrAck_waitStep1, exec_wrAck_ignored⟩

/-- Settles O41: the two events share `loseSession`, whose three outcomes are those of the three groups of phases. -/
theorem wrFailAndInvalidateDiscard : Obligations.WrFailAndInvalidateDiscard := fun _ _ hi =>
  ⟨fun hp => (exec_of_loses hi).trans (congrArg _ (loseSession_of_first_write hp)),
    fun hp => (exec_of_loses hi).trans (congrArg _ (loseSession_of_partial_change hp)),
    fun hp => (exec_of_loses hi).trans (congrArg _ (loseSession_of_idle hp))⟩

/-- Settles O42: by phase, and in SETTLE by whether the count reaches zero. -/
theorem tickCountsDownInSettle : Obligations.TickCountsDownInSettle := fun s =>
  ⟨exec_tick_ignored,
    fun hp hn => (exec_tick_settle hp).trans (congrArg _ (settleTick_of_counting hn)),
    fun hp hn => exec_tick_issues hp (by bv_omega)⟩

/-- Settles O44: each of the four codes decodes to an event whose meaning is the state as it is. -/
theorem reservedEventsChangeNothing : Obligations.ReservedEventsChangeNothing := by
  refine ⟨fun _ _ => exec_reserved, fun s c hr he hc => ?_⟩
  exact step_of_take_run s _ _ (s.take_of_event c hr he) (exec_reserved (decodeEvent_reserved hc))

/-! ### The settle delay as a run of ticks (R214) -/

theorem execTimes_succ {i : Instr} {s t : State} (h : exec i s.lowerStrobes = .next t) (n : Nat) :
    execTimes i (n + 1) s = execTimes i n t := by
  rw [execTimes, h]

/-- The strobes are lowered before the first of the executions, so they play no part. -/
theorem execTimes_succ_lowerStrobes (i : Instr) (n : Nat) (s : State) :
    execTimes i (n + 1) s.lowerStrobes = execTimes i (n + 1) s := rfl

theorem State.lowerStrobes_eq_settling {s : State} {c : Nat} (hp : s.phase = .settle) (hcnt : s.settleCnt.toNat = c) :
    s.lowerStrobes = s.settling c := by
  have hbits : BitVec.ofNat 16 c = s.settleCnt := by rw [← hcnt, BitVec.ofNat_toNat, BitVec.setWidth_eq]
  rw [State.settling, hbits, ← hp]
  rfl

/-- As long as a count remains, `j` ticks take `j` from it and do nothing else. -/
theorem execTimes_tick_settling (s : State) (j m : Nat) {c : Nat} (hc : j + (c + 1) ≤ 65535) :
    execTimes .tick (j + m) (s.settling (j + (c + 1))) = execTimes .tick m (s.settling (c + 1)) := by
  induction j with
  | zero => rw [Nat.zero_add, Nat.zero_add]
  | succ j ih =>
    have htick : exec .tick (s.settling (j + c + 2)).lowerStrobes = .next (s.settling (j + c + 1)) :=
      exec_tick_counts rfl (by omega) rfl
    rw [show j + 1 + m = j + m + 1 by omega, show j + 1 + (c + 1) = j + c + 2 by omega]
    exact (execTimes_succ htick (j + m)).trans (ih (by omega))

theorem execTimes_tick_settling_last (s : State) :
    execTimes .tick 1 (s.settling 1) = .next (s.settling 0).issueStep3 :=
  execTimes_succ (exec_tick_issues rfl rfl) 0

/-- Settles O43: with the strobes lowered the block is `settling` with count `n + 1`, and the ticks before the last only count. -/
theorem settleTakesExactlyItsTicks : Obligations.SettleTakesExactlyItsTicks := by
  intro n s hp hcnt
  have hwidth : n + 1 ≤ 65535 := by have := s.settleCnt.isLt; omega
  have hstart (j : Nat) : execTimes .tick (j + 1) s = execTimes .tick (j + 1) (s.settling (n + 1)) := by
    rw [← execTimes_succ_lowerStrobes, State.lowerStrobes_eq_settling hp hcnt]
  refine ⟨fun j hpos hj => ?counting, ?issuing⟩
  case counting =>
    obtain ⟨k, rfl⟩ : ∃ k, j = k + 1 := ⟨j - 1, by omega⟩
    obtain ⟨c, rfl⟩ : ∃ c, n = k + 1 + c := ⟨n - (k + 1), by omega⟩
    have hrun : execTimes .tick (k + 1) s = .next (s.settling (c + 1)) :=
      (hstart k).trans (execTimes_tick_settling s (k + 1) 0 hwidth)
    have hcount : (s.settling (c + 1)).settleCnt.toNat = k + 1 + c + 1 - (k + 1) :=
      (s.settling_settleCnt_toNat (by omega)).trans (by omega)
    exact ⟨_, hrun, rfl, hcount, rfl, rfl, rfl, rfl⟩
  case issuing =>
    have hrun : execTimes .tick (n + 1) s = .next (s.settling 0).issueStep3 :=
      (hstart n).trans ((execTimes_tick_settling s n 1 (c := 0) hwidth).trans (execTimes_tick_settling_last s))
    exact ⟨_, hrun, rfl, rfl, rfl⟩

end Sys2Proof.Machine
end

section
/-! PROOFS. The counter law (44_write_protocol.md sections 2 and 4): what an instruction, a step and a run make of `CTR` and of byte 16
of the buffer in flight. The statements O60, O45 and O46. -/

namespace Sys2Proof.Machine

/-! ### What an instruction makes of CTR (R215) -/

/-- An acknowledgment commits exactly when a write is in flight. -/
theorem ctr_of_exec_wrAck {s t : State} (hx : exec .wrAck s = .next t) :
    t.ctr = if s.writeInFlight then nextCtr s.cfg.ctrFeedback s.ctr s.txb else s.ctr := by
  cases hp : s.phase with
  | idle | settle =>
    rw [exec_wrAck_ignored (by simp [hp])] at hx
    cases hx
    simp [State.writeInFlight, hp]
  | waitSingle | waitStep3 =>
    rw [exec_wrAck_completes (by simp [hp])] at hx
    cases hx
    simp [State.writeInFlight, hp]
  | waitStep1 =>
    rw [exec_wrAck_waitStep1 hp] at hx
    cases hx
    simp [State.writeInFlight, hp]

/-- Besides an acknowledgment only an accepted LOAD writes `CTR`. -/
theorem ctr_of_exec {i : Instr} {s t : State} (hx : exec i s = .next t) (hload : i = .load → s.phase ≠ .idle) :
    t.ctr = if i = .wrAck ∧ s.writeInFlight = true then nextCtr s.cfg.ctrFeedback s.ctr s.txb else s.ctr := by
  by_cases hi : i = .wrAck
  · subst hi
    simpa using ctr_of_exec_wrAck hx
  · rw [if_neg (fun h => hi h.1)]
    obtain ⟨-, hctr⟩ | ⟨hl, hp, -⟩ | ⟨hack, -⟩ := (exec_effect i s t hx).record_ctr_cases
    · exact hctr
    · exact absurd hp (hload hl)
    · exact absurd hack hi

/-! ### Byte 16 of the buffer in flight (R124, R125) -/

theorem State.CarriesNextCounter.of_landed {s : State} (h : s.writeInFlight = false) : s.CarriesNextCounter :=
  fun hw => absurd (h.symm.trans hw) (by decide)

theorem State.CarriesNextCounter.advance {s : State} (h : s.CarriesNextCounter) : s.advance.CarriesNextCounter := by
  simpa [State.CarriesNextCounter] using h

theorem State.CarriesNextCounter.rejectIllegal {s : State} (h : s.CarriesNextCounter) (why : Illegal) :
    (s.rejectIllegal why).CarriesNextCounter := by
  obtain ⟨-, he⟩ | ⟨-, he⟩ := rejectIllegal_cases s why
  · rw [he]; exact h
  · rw [he]; exact h

/-- A write begins with a packed buffer; an answer leaves no write in flight; every other effect leaves `CTR` and the buffer in
flight, if there is one, alone. -/
theorem Effect.carriesNextCounter {i : Instr} {s t : State} (e : Effect i s t) (h : s.CarriesNextCounter) :
    t.CarriesNextCounter := by
  cases e with
  | wrote => exact fun _ => pack_counter_self ..
  | began => exact fun _ => pack_counter_self ..
  | expired => exact fun _ => pack_counter_self ..
  | committed => exact .of_landed rfl
  | settling => exact .of_landed rfl
  | lost => exact .of_landed rfl
  | loaded _ hp => exact .of_landed (by simp [State.writeInFlight, hp])
  | _ => exact h

theorem step_carriesNextCounter {s t : State} (h : s.CarriesNextCounter) (hstep : step s = .next t) :
    t.CarriesNextCounter := by
  obtain ⟨-, rfl⟩ | ⟨-, rfl⟩ | ⟨why, -, rfl⟩ | ⟨i, u, -, hx, rfl⟩ := step_cases s t hstep
  · exact (State.CarriesNextCounter.of_landed (s := s.resetBlock) rfl).advance
  · exact State.CarriesNextCounter.advance (s := s.lowerStrobes) h
  · exact (State.CarriesNextCounter.rejectIllegal (s := s.lowerStrobes) h why).advance
  · exact ((exec_effect i _ u hx).carriesNextCounter h).advance

/-! ### A step (R219) -/

theorem State.undisturbed_iff (s : State) : s.undisturbed = true ↔
    s.take ≠ .reset ∧ s.take ≠ .run .wrFail ∧ s.take ≠ .run .invalidate ∧ (s.take = .run .load → s.phase ≠ .idle) := by
  simp [State.undisturbed, State.cmdReady, and_assoc, imp_iff_not_or]

theorem State.ackTaken_of_run {s : State} {i : Instr} (h : s.take = .run i) :
    s.ackTaken = true ↔ i = .wrAck ∧ s.writeInFlight = true := by
  simp [State.ackTaken, h]

theorem State.rejectIllegal_ctr (s : State) (why : Illegal) : (s.rejectIllegal why).ctr = s.ctr := by
  obtain ⟨-, he⟩ | ⟨-, he⟩ := rejectIllegal_cases s why
  · rw [he, State.raise_ctr]
  · rw [he]

/-- With LOGICAL feedback `CTR` counts the acknowledgments. -/
theorem ctr_of_undisturbed_step {s t : State} (hlogical : s.cfg.ctrFeedback = .logical) (hund : s.undisturbed = true)
    (hstep : step s = .next t) : t.ctr = s.ctr + (if s.ackTaken then 1 else 0) := by
  obtain ⟨hreset, -, -, hload⟩ := s.undisturbed_iff.1 hund
  obtain ⟨htake, -⟩ | ⟨htake, rfl⟩ | ⟨why, htake, rfl⟩ | ⟨i, u, htake, hx, rfl⟩ := step_cases s t hstep
  · exact absurd htake hreset
  · simp [State.ackTaken, htake]
  · simp [State.ackTaken, htake, State.rejectIllegal_ctr]
  · have hctr := ctr_of_exec hx fun hi => hload (htake.trans (congrArg _ hi))
    rw [State.advance_ctr, hctr]
    simp only [State.ackTaken_of_run htake, State.writeInFlight_lowerStrobes, State.lowerStrobes_cfg, hlogical, nextCtr]
    split
    · rfl
    · exact (BitVec.add_zero _).symm

/-- Settles O60: an undisturbed step adds one to `CTR` exactly with an acknowledgment, and every step keeps what byte 16 carries. -/
theorem everyUndisturbedStepKeepsTheCounterLaw : Obligations.EveryUndisturbedStepKeepsTheCounterLaw :=
  fun _ _ hlogical hcarries hund hstep =>
    ⟨ctr_of_undisturbed_step hlogical hund hstep, step_carriesNextCounter hcarries hstep⟩

/-! ### A run (R219) -/

theorem exists_step_of_runSteps_succ {n : Nat} {s t : State} (h : runSteps (n + 1) s = .next t) :
    ∃ u, step s = .next u ∧ runSteps n u = .next t := by
  rw [runSteps] at h
  cases hs : step s with
  | next u => rw [hs] at h; exact ⟨u, rfl, h⟩
  | fault r => rw [hs] at h; exact absurd h nofun
  | refused r => rw [hs] at h; exact absurd h nofun

theorem ackedWrites_succ {s t : State} (h : step s = .next t) (n : Nat) :
    ackedWrites (n + 1) s = (if s.ackTaken then 1 else 0) + ackedWrites n t := by
  rw [ackedWrites, h]

/-- The law of a step adds up along a run. -/
theorem counterLaw_of_carriesNextCounter {n : Nat} {s t : State} (hlogical : s.cfg.ctrFeedback = .logical)
    (hcarries : s.CarriesNextCounter) (hrun : UndisturbedRun n s) (hn : runSteps n s = .next t) :
    t.ctr = s.ctr + BitVec.ofNat 8 (ackedWrites n s) ∧ t.CarriesNextCounter := by
  induction n generalizing s with
  | zero =>
    obtain rfl : s = t := by injection hn
    exact ⟨(BitVec.add_zero _).symm, hcarries⟩
  | succ n ih =>
    obtain ⟨u, hstep, hrest⟩ := exists_step_of_runSteps_succ hn
    obtain ⟨hund, hrunRest⟩ := hrun
    obtain ⟨hctr, hnext⟩ := everyUndisturbedStepKeepsTheCounterLaw s u hlogical hcarries hund hstep
    have hcfg : u.cfg.ctrFeedback = .logical := by rw [parametersNeverChange s u hstep, hlogical]
    obtain ⟨hctrRest, hlast⟩ := ih hcfg hnext (hrunRest u hstep) hrest
    refine ⟨?_, hlast⟩
    rw [hctrRest, hctr, ackedWrites_succ hstep, BitVec.ofNat_add, BitVec.add_assoc]
    cases s.ackTaken <;> rfl

/-- Settles O45: in IDLE no buffer is in flight, so the law holds from there along the run. -/
theorem counterLaw : Obligations.CounterLaw := by
  intro n s t hp _ hlogical hrun hn
  have hstart : s.CarriesNextCounter := .of_landed (by simp [State.writeInFlight, hp])
  obtain ⟨hctr, hcarries⟩ := counterLaw_of_carriesNextCounter hlogical hstart hrun hn
  refine ⟨hctr, fun hw => ?_⟩
  rw [hcarries hw, hctr, BitVec.add_assoc, BitVec.ofNat_add]
  rfl

/-! ### WIRE feedback (C3) -/

/-- Byte 16 is the incremented counter itself exactly when bit 3 is not replaced or is replaced by itself. -/
theorem wireCounter_eq_self_iff (n : Byte) (enabled submode : Bool) :
    wireCounter n enabled submode = n ↔ enabled = false ∨ submode = bitOf n 3 := by
  cases enabled with
  | false => exact iff_of_true rfl (.inl rfl)
  | true =>
    have hbit : withBit3 n submode = n ↔ submode = bitOf n 3 :=
      ⟨fun h => by rw [← withBit3_bit3 n submode, h], fun h => by rw [h, withBit3_self]⟩
    simpa [wireCounter] using hbit

/-- Settles O46: the acknowledgment puts byte 16 of the buffer in flight in `CTR`, and the invariant says what that byte is. -/
theorem wireFeedbackAdvancesByOneOnlyIfBit3Agrees : Obligations.WireFeedbackAdvancesByOneOnlyIfBit3Agrees := by
  intro s t hinv hwire hw hx
  have hctr : t.ctr = wireCounter (s.ctr + 1) s.txb.schedEnabled s.txb.schedSubmode := by
    rw [ctr_of_exec_wrAck hx, if_pos hw, hwire, nextCtr, hinv.txCounter hw]
  rw [hctr]
  exact wireCounter_eq_self_iff ..

end Sys2Proof.Machine
end

section
/-! PROOFS. Events and commands at the ports (44_write_protocol.md section 1): a busy block holds a command, and an event goes before
one. The statements O9 and O8. -/

namespace Sys2Proof.Machine

/-! ### Commands and a busy block (R217) -/

/-- A command word decodes to a command: it is the encoding of what it decodes to, and an event's encoding is on the other port. -/
theorem isEvent_of_decodeCommand {w : CmdWord} {i : Instr} (h : decodeCommand w = .ok i) : i.isEvent = false := by
  obtain ⟨-, hw⟩ := encodeOfDecodeIsThePortWord (.cmd w) i h
  obtain ⟨-, -, c, hc, -⟩ | ⟨hcommand, -⟩ := Laws.TableRow.all i
  · cases hc.symm.trans hw
  · exact hcommand

/-- Of the effects a command can have, only being held is one of a busy block. -/
theorem Effect.held_of_busy {i : Instr} {s t : State} (e : Effect i s t) (hi : i.isEvent = false) (hp : s.phase ≠ .idle) :
    t = s := by
  cases e with
  | held => rfl
  | ignored => rfl
  | committed | settling | counted | expired => cases hi
  | lost _ _ _ _ _ hlose => obtain rfl | rfl := hlose <;> cases hi
  | rejected _ _ _ _ hidle => exact absurd hidle hp
  | read _ _ _ hidle => exact absurd hidle hp
  | loaded _ hidle => exact absurd hidle hp
  | loadFailed _ hidle => exact absurd hidle hp
  | wrote _ _ _ _ hidle => exact absurd hidle hp
  | began _ _ _ _ _ _ hidle => exact absurd hidle hp
  | discarded _ _ hidle => exact absurd hidle hp

theorem step_of_held_command {s : State} {w : CmdWord} (hr : s.ports.reset = false) (he : s.ports.ev = none)
    (hc : s.ports.cmd = some w) (hp : s.phase ≠ .idle) : step s = .next s.lowerStrobes.advance := by
  have htake := s.take_of_command w hr he hc
  cases hd : decodeCommand w with
  | ok i =>
    rw [decode, hd, Taken.ofDecoded] at htake
    obtain ⟨u, hu⟩ := exec_answers_next i s.lowerStrobes
    obtain rfl := (exec_effect i _ u hu).held_of_busy (isEvent_of_decodeCommand hd) hp
    exact step_of_take_run s _ i htake hu
  | illegal why =>
    rw [decode, hd, Taken.ofDecoded] at htake
    have hheld : s.lowerStrobes.rejectIllegal why = s.lowerStrobes := whenReady_busy _ _ hp
    simp only [step, htake, hheld]

/-- What frees a busy block: of the changes of phase (R210) those that end in IDLE. -/
theorem take_of_return_to_idle {s t : State} (hstep : step s = .next t) (hp : s.phase ≠ .idle) (ht : t.phase = .idle) :
    s.take = .reset ∨ s.take = .run .wrAck ∨ s.take = .run .wrFail ∨ s.take = .run .invalidate := by
  cases hr : s.ports.reset with
  | true => exact .inl (by simp [State.take, hr])
  | false =>
    have hchange : t.phase ≠ s.phase := fun h => hp (h.symm.trans ht)
    obtain ⟨hidle, -⟩ | ⟨-, -, hlose⟩ | ⟨-, -, hack⟩ | ⟨-, hsettle, -⟩ | ⟨-, hstep3, -⟩ :=
      phaseChangesAreTheTables s t hr hstep hchange
    · exact absurd hidle hp
    · exact .inr (.inr hlose)
    · exact .inr (.inl hack)
    · exact absurd (ht.symm.trans hsettle) (by decide)
    · exact absurd (ht.symm.trans hstep3) (by decide)

/-- Settles O9: busy, the command is held; idle, O7 and `step_of_accepted_illegal` say how it is taken; and the table of phase
changes says what frees the block. -/
theorem busyBlockHoldsCommands : Obligations.BusyBlockHoldsCommands := by
  intro s w
  refine ⟨s.cmdReady_iff, fun hr he hc => ⟨step_of_held_command hr he hc, fun _ i hd => ?_, fun hp why hd => ?_⟩,
    fun t => take_of_return_to_idle⟩
  · obtain ⟨u, hu, hstep, -⟩ := stepRunsTheDecodedInstruction s i hr (.inr ⟨he, w, hc, hd⟩)
    exact ⟨u, hu, hstep⟩
  · exact step_of_accepted_illegal hr he hc hp hd

/-! ### An event beside a command (R218) -/

/-- The state with other ports. -/
def State.withPorts (s : State) (p : Ports) : State := { s with ports := p }

theorem State.loseSession_withPorts (s : State) (p : Ports) : (s.withPorts p).loseSession = s.loseSession.withPorts p := by
  obtain ⟨_, _, _, phase, _⟩ := s
  cases phase <;> rfl

theorem State.settleTick_withPorts (s : State) (p : Ports) : (s.withPorts p).settleTick = s.settleTick.withPorts p := by
  by_cases hn : s.settleCnt - 1 = 0
  · rw [settleTick_of_last hn, settleTick_of_last (s := s.withPorts p) hn]
    rfl
  · rw [settleTick_of_counting hn, settleTick_of_counting (s := s.withPorts p) hn]
    rfl

/-- No event reads the ports. -/
theorem exec_event_withPorts {i : Instr} (hi : i.isEvent = true) (s : State) (p : Ports) :
    exec i (s.withPorts p) = mapNext (State.withPorts · p) (exec i s) := by
  cases i with
  | wrAck =>
    obtain ⟨_, _, _, phase, _⟩ := s
    cases phase <;> rfl
  | wrFail => exact congrArg _ (s.loseSession_withPorts p)
  | invalidate => exact congrArg _ (s.loseSession_withPorts p)
  | tick =>
    by_cases hp : s.phase = .settle
    · rw [exec_tick_settle hp, exec_tick_settle (s := s.withPorts p) hp, s.settleTick_withPorts, mapNext]
    · rw [exec_tick_ignored hp, exec_tick_ignored (s := s.withPorts p) hp, mapNext]
  | evReserved0 | evReserved5 | evReserved6 | evReserved7 => rfl
  | _ => cases hi

/-- Ports that differ in what they present alone are the same ports once the agents have moved on. -/
theorem State.advance_withPorts {s : State} {p : Ports} (h : p.silent = s.ports.silent) :
    (s.withPorts p).advance = s.advance := by
  cases he : s.env with
  | nil => rw [s.advance_of_env_nil he, (s.withPorts p).advance_of_env_nil he, ← h]; rfl
  | cons q qs => rw [s.advance_of_env_cons q qs he, (s.withPorts p).advance_of_env_cons q qs he]; rfl

/-- The step that takes an event is the same whatever command is presented beside it. -/
theorem step_withPorts_of_event {s : State} {p : Ports} {i : Instr} (hi : i.isEvent = true) (htake : s.take = .run i)
    (htake' : (s.withPorts p).take = .run i) (hp : p.silent = s.ports.silent) : step (s.withPorts p) = step s := by
  obtain ⟨u, hu⟩ := exec_answers_next i s.lowerStrobes
  have hu' : exec i (s.withPorts p).lowerStrobes = .next (u.withPorts p) := by
    have hx := exec_event_withPorts hi s.lowerStrobes p
    rwa [hu] at hx
  obtain ⟨-, hports, -⟩ := (exec_effect i _ u hu).keeps_surroundings
  have hsilent : p.silent = u.ports.silent := by rw [hp, hports, State.lowerStrobes_ports]
  rw [step_of_take_run _ _ _ htake hu, step_of_take_run _ _ _ htake' hu', State.advance_withPorts hsilent]

theorem isEvent_decodeEvent : ∀ c : EvCode, (decodeEvent c).isEvent = true := by decide

/-- Settles O8: the event is what the step takes with the command and without it, and O7 says how the command is taken after it. -/
theorem eventIsTakenBeforeACommand : Obligations.EventIsTakenBeforeACommand := by
  intro s c w hr he _
  refine ⟨?alone, fun p ps i henv hpr hpe hpc hd => ?after⟩
  case alone =>
    have htake : s.take = .run (decodeEvent c) := s.take_of_event c hr he
    have htake' : (s.withPorts { s.ports with cmd := none }).take = .run (decodeEvent c) := State.take_of_event _ c hr he
    exact (step_withPorts_of_event (isEvent_decodeEvent c) htake htake' rfl).symm
  case after =>
    obtain ⟨u, hu, hstep, -, -, hnext, -⟩ := stepRunsTheDecodedInstruction s (decodeEvent c) hr (.inl ⟨c, he, rfl⟩)
    rw [hnext p ps henv] at hstep
    obtain ⟨v, hv, hstep', -⟩ :=
      stepRunsTheDecodedInstruction { u with ports := p, env := ps } i hpr (.inr ⟨hpe, w, hpc, hd⟩)
    exact ⟨u, _, v, hu, hstep, rfl, hv, hstep'⟩

end Sys2Proof.Machine
end

section
/-! PROOFS. Exceptions (60_exceptions.md R243 and R247): without a cached record every command but DECODE and LOAD is NotConnected,
and no step stops the block. The statements O34 and O10. -/

namespace Sys2Proof.Machine

/-! ### No cached record (R243) -/

/-- SET_SCHEDULE's operands pass when the mode is not the reserved 3 and, unless the target is Off, the time is good (R184). -/
theorem badSchedule_eq_none_of_ne_three {k : BitVec 2} {h m : Byte} (hk : k ≠ 3)
    (hgood : k = 0 ∨ (h.toNat ≤ 23 ∧ m.toNat ≤ 59)) : badSchedule k h m = none := by
  have hmodes : ∀ k : BitVec 2, k ≠ 3 → k = 0 ∨ k = 1 ∨ k = 2 := by decide
  obtain hoff | hactive := hmodes k hk
  · exact badSchedule_eq_none (.inl hoff)
  · exact badSchedule_eq_none (hgood.imp_right (⟨hactive, ·⟩))

/-- Settles O34: the operands pass check 3 of R128, by the hypothesis on the command's own form or because it has no such check, so
check 4 is the one that answers. -/
theorem noRecordIsNotConnected : Obligations.NoRecordIsNotConnected := by
  intro i s hp hr hcommand hdecode hload hclock hclockMode hlanguage hschedule
  cases i with
  | decode => exact absurd rfl hdecode
  | load => exact absurd rfl hload
  | getState | disableSchedule => exact whenReady_accepted hp (checkRecord_absent s _ hr)
  | setTargetTemp | setHoldTime | setChimeVolume | setPreBoil | setAltitude => exact setField_notConnected hp hr rfl _
  | setClock h m =>
    obtain ⟨hh, hm⟩ := hclock h m rfl
    exact setField_notConnected hp hr (badTime_eq_none hh hm) _
  | setClockMode h m d =>
    obtain ⟨hh, hm, hd⟩ := hclockMode h m d rfl
    obtain ⟨x, hx⟩ := Option.isSome_iff_exists.1 hd
    exact setField_notConnected hp hr (badClockMode_eq_none hh hm hx) _
  | setLanguage l => exact setField_notConnected hp hr (badLanguage_eq_none (hlanguage l rfl)) _
  | setSchedule k h m v =>
    obtain ⟨hk, hgood⟩ := hschedule k h m v rfl
    exact setSchedule_notConnected v hp hr (badSchedule_eq_none_of_ne_three hk hgood)
  | wrAck | wrFail | tick | invalidate | evReserved0 | evReserved5 | evReserved6 | evReserved7 => cases hcommand

/-! ### Every step goes on (R247, R284) -/

/-- Settles O10: of the four things a step can take, only an instruction could stop it, and `exec` always answers a next state. -/
theorem everyStepHasANextState : Obligations.EveryStepHasANextState := by
  intro s
  cases htake : s.take with
  | reset => exact ⟨s.resetBlock.advance, by rw [step, htake]⟩
  | nothing => exact ⟨s.lowerStrobes.advance, by rw [step, htake]⟩
  | illegal why => exact ⟨(s.lowerStrobes.rejectIllegal why).advance, by rw [step, htake]⟩
  | run i =>
    obtain ⟨u, hu⟩ := exec_answers_next i s.lowerStrobes
    exact ⟨u.advance, step_of_take_run s u i htake hu⟩

end Sys2Proof.Machine
end

section
/-! PROOFS. Reset, and the block without a cached record (70_reset_and_hazards.md R280 and R281): which effects give OK, and what a
reset leaves of a write in flight. The statements O58 and O51. -/

namespace Sys2Proof.Machine

/-! ### Results that are OK (R281) -/

/-- From lowered strobes, an effect that gives OK is DECODE's, LOAD's, GET_STATE's of a present record, or the acknowledgment of a
write: the other effects give an error or no result. -/
theorem Effect.ok_cases {i : Instr} {s t : State} (e : Effect i s t) (hlow : s.resValid = false) (hv : t.resValid = true)
    (hok : t.res.code = 0x00) :
    i = .decode ∨ i = .load ∨ (i = .getState ∧ s.recValid = true) ∨ (i = .wrAck ∧ s.phase ≠ .idle) := by
  have hresult : t.resValid ≠ s.resValid := by simp [hlow, hv]
  cases e with
  | read _ _ _ _ hi hr =>
    obtain rfl | rfl := hi
    · exact .inl rfl
    · exact .inr (.inr (.inl ⟨rfl, (hr rfl).1⟩))
  | loaded | loadFailed => exact .inr (.inl rfl)
  | committed _ hp =>
    have hbusy : s.phase ≠ .idle := by obtain h | h := hp <;> simp [h]
    exact .inr (.inr (.inr ⟨rfl, hbusy⟩))
  | rejected _ _ _ _ _ _ he | lost _ _ _ _ _ _ he => exact absurd ((ResultCode.code_eq_zero_iff _).1 hok) he
  | held | wrote | began | settling | discarded | counted | expired | ignored => exact absurd rfl hresult

/-- Settles O58: lowered strobes carry no result and an illegal word's result is no OK; of the effects that give OK, GET_STATE's wants
a record and an acknowledgment's a busy block. -/
theorem onlyDecodeAndLoadSucceedWithoutARecord : Obligations.OnlyDecodeAndLoadSucceedWithoutARecord := by
  intro s t hr hp habsent hstep hv hok
  obtain rfl | ⟨why, -, rfl⟩ | ⟨i, u, htake, he, rfl⟩ := step_cases_of_no_reset hr hstep
  · simp at hv
  · exact absurd ((ResultCode.code_eq_zero_iff _).1 (by simpa using hok)) (by decide)
  · obtain rfl | rfl | ⟨-, hpresent⟩ | ⟨-, hbusy⟩ := he.ok_cases rfl (by simpa using hv) (by simpa using hok)
    · exact .inl htake
    · exact .inr htake
    · exact absurd (habsent.symm.trans hpresent) (by decide)
    · exact absurd hp hbusy

/-! ### Reset (R280, log entry 3) -/

theorem step_of_reset {s : State} (hr : s.ports.reset = true) : step s = .next s.resetBlock.advance := by
  have htake : s.take = .reset := by rw [State.take, if_pos hr]
  rw [step, htake]

/-- There is nothing to discard where no record is cached (R216). -/
theorem State.discard_of_absent {s : State} (h : s.recValid = false) : s.discard = s := by
  rw [State.discard, ← h]

/-- WR_FAIL changes nothing in an idle block without a record (R212). -/
theorem exec_wrFail_of_idle_absent {s : State} (hp : s.phase = .idle) (h : s.recValid = false) : exec .wrFail s = .next s := by
  rw [exec_of_loses (.inl rfl), loseSession_of_idle hp, State.discard_of_absent h]

/-- Settles O51: the reset leaves an idle block without a record, where an acknowledgment is ignored and a failure has nothing to
discard. -/
theorem resetForgetsTheWriteInFlight : Obligations.ResetForgetsTheWriteInFlight := by
  intro s hr
  have habsent : s.resetBlock.advance.recValid = false := State.advance_recValid _
  have hidle : s.resetBlock.advance.phase = .idle := State.advance_phase _
  have hack := exec_wrAck_ignored (.inl hidle)
  have hfail := exec_wrFail_of_idle_absent hidle habsent
  exact ⟨_, step_of_reset hr, habsent, hidle, State.advance_res _, State.advance_resValid _, State.advance_txValid _,
    State.advance_cfg _, hack, hfail⟩

end Sys2Proof.Machine
end
